-- ==== Sys2Proof/Word.lean ====
section
/-! DEFINITION. The widths of spec/00_scope.md R4: one name per kind of word the core holds or moves. -/

namespace Sys2Proof

/-- One byte of the space FRAME (R26, R40, R41). -/
abbrev Byte := BitVec 8

/-- A dimension register, WIDTH or HEIGHT: DIM_BITS = 16, read as signed (R4, R13, R14). -/
abbrev Dim := BitVec 16

/-- An operand register of XFORM, OPY, OPU or OPV: OP_BITS = 16, read as signed (R4, R19 to R21). -/
abbrev Operand := BitVec 16

/-- An index or length register, I, K, FRAME_LEN or OUT_CAP: IDX_BITS = 32, unsigned (R4, R15 to R18). -/
abbrev Index := BitVec 32

/-- The data word of one host transfer: HOST_DATA_BITS = 32 (R4, R49). -/
abbrev HostWord := BitVec 32

/-- A packed pixel word, 0xAARRGGBB (R42). -/
abbrev Pixel := BitVec 32

/-- A command word, as written to CMD (R43). -/
abbrev CommandWord := BitVec 32

end Sys2Proof
end

