-- ==== Sys2Proof/Syntax.lean ====
section
/-! DEFINITION. The commands of the core: spec/opcode_table.json, spec/30_encoding.md R44. -/

namespace Sys2Proof

/-- The two host commands (R44). Neither has an operand field: every operand is in a register (R43, R46). -/
inductive Instr where
  /-- DECODE, 0x00000001: validate, then convert the whole frame (R50). -/
  | decode
  /-- XFORM, 0x00000002: transform one (y, u, v) triple (R65). -/
  | xform
deriving DecidableEq, Repr

end Sys2Proof
end

