-- ==== Sys2Proof/WellFormed.lean ====
section
/-! DEFINITION. The command word format CMDW and its checks: spec/30_encoding.md R43, R44, R47. -/

namespace Sys2Proof

/-- The one command format, CMDW (R43): ZERO in bits 31:8, OP in bits 7:0. -/
structure CmdWord where
  zero : BitVec 24
  op : BitVec 8
deriving DecidableEq, Repr

/-- R43: the field ZERO must be 0x000000. -/
def CmdWord.zeroOk (c : CmdWord) : Bool := c.zero == 0x000000#24

/-- R44: the operation code is that of a row of the command map. -/
def CmdWord.opOk (c : CmdWord) : Bool := c.op == 0x01#8 || c.op == 0x02#8

/-- R43, R44: the word matches a row of the command map on all 32 bits. -/
def CmdWord.wf (c : CmdWord) : Bool := c.zeroOk && c.opOk

/-- R43: a command has no operand field, so every command term is well formed. -/
def Instr.wf : Instr → Bool
  | .decode => true
  | .xform => true

end Sys2Proof
end

