-- ==== Sys2Proof/Decode.lean ====
section
/-! DEFINITION. From a command word to a command and back: spec/30_encoding.md R43, R44, R47. -/

namespace Sys2Proof

/-- Why a command word selects nothing (R47 (a)). The core then ignores the write: no fault. -/
inductive DecodeError where
  /-- The field ZERO is not 0x000000 (R43). -/
  | zeroFieldSet
  /-- ZERO is 0 and OP is the code of no command (R44). -/
  | reservedOp
deriving DecidableEq, Repr

/-- R43: the fields of a command word. -/
def cmdFields (d : CommandWord) : CmdWord where
  zero := d.extractLsb' 8 24
  op := d.extractLsb' 0 8

/-- R43: the command word with the given fields, ZERO in the more significant bits. -/
def cmdWord (c : CmdWord) : CommandWord := c.zero ++ c.op

/-- R44: `d = 1` selects DECODE, `d = 2` selects XFORM, anything else selects nothing. Total on any word. -/
def decode (d : CommandWord) : Except DecodeError Instr :=
  let c := cmdFields d
  if c.zero ≠ 0x000000#24 then .error .zeroFieldSet
  else if c.op = 0x01#8 then .ok .decode
  else if c.op = 0x02#8 then .ok .xform
  else .error .reservedOp

/-- R43, R44: the fields of a command's word. -/
def encodeFields : Instr → CmdWord
  | .decode => { zero := 0x000000#24, op := 0x01#8 }
  | .xform => { zero := 0x000000#24, op := 0x02#8 }

/-- R44: the word of a command. -/
def encode (i : Instr) : CommandWord := cmdWord (encodeFields i)

/-- The command the decoder reads from the `nbits` low bits of `w`, every higher bit 0; none where the decoder
refuses, and none for more than the 32 bits a command has (R43: one command length). -/
def decodeTableWord (nbits w : Nat) : Option Instr :=
  if nbits ≤ 32 then
    match decode (BitVec.ofNat 32 (w % 2 ^ nbits)) with
    | .ok i => some i
    | .error _ => none
  else none

end Sys2Proof
end

