-- ==== Sys2Proof/Config.lean ====
section
/-! DEFINITION. The parameters of spec/00_scope.md R4 and the free values: what the spec leaves open is a constant
without a body, so that nothing can be proved of the value it takes. -/

namespace Sys2Proof

/-- The arithmetic parameters of R4, one record. The widths of R4 are the types of Word.lean, TRUNC is
`Sys2Proof.Machine.tq`, and no rule reads PIX_ENDIAN or the buffer binding. -/
structure Config where
  /-- C_RV: numerator of the coefficient of v in red. -/
  cRV : Nat
  /-- C_GV: numerator of the coefficient of v in green. -/
  cGV : Nat
  /-- C_GU: numerator of the coefficient of u in green. -/
  cGU : Nat
  /-- C_BU: numerator of the coefficient of u in blue. -/
  cBU : Nat
  /-- C_DEN: the common denominator of the four coefficients. -/
  cDen : Nat
  /-- CHROMA_BIAS: subtracted from each chroma byte. -/
  chromaBias : Nat
  /-- ALPHA: the alpha byte of every output pixel. -/
  alpha : Byte
deriving DecidableEq, Repr

/-- The values this hardware takes (R4). -/
def Config.chip : Config where
  cRV := 1772
  cGV := 344
  cGU := 714
  cBU := 1402
  cDen := 1000
  chromaBias := 128
  alpha := 0xFF#8

/-- Free value (R93): the byte at an address of a FRAME buffer that nothing has written. The arguments are the
buffer's tag and the address, so that reading the byte twice gives the same value (R33). DESIGN CHOICE (log 4). -/
opaque Config.unwrittenByte : Nat → Nat → Byte

/-- Free value (R93, U7): the word at an index of a PIX buffer that nothing has written. The arguments are the
buffer's tag and the index. DESIGN CHOICE (log 5). -/
opaque Config.unwrittenPixel : Nat → Nat → Pixel

/-- Free value (R98, U4): what the platform returns for a read at or beyond the real end of FRAME. The arguments are
the draw and the address. DESIGN CHOICE (log 8). -/
opaque Config.beyondFrame : Nat → Nat → Byte

/-- Free choice (R96, U2): whether the core's one read of a byte that HOST changed during the decode returns the new
byte (true) or the old one. The arguments are the draw and the address. DESIGN CHOICE (log 10). -/
opaque Config.seesNewByte : Nat → Nat → Bool

/-- Free choice (R97, R92, U3, U14): whether a PIX word of an unfinished decode holds its final value (true) or its
old one. The arguments are the draw and the index. DESIGN CHOICE (log 11, 12). -/
opaque Config.seesFinalPixel : Nat → Nat → Bool

end Sys2Proof
end

