-- ==== Sys2Proof/Machine/State.lean ====
section
/-! DEFINITION. The state of the core, of its two buffers and of what HOST does next (spec/10_state.md,
spec/20_memory.md, spec/70_reset_and_hazards.md R93), the reasons a step can stop, and the state after reset. -/

namespace Sys2Proof.Machine

/-- STATUS.STATE (R12, R45). -/
inductive CoreState where
  | idle
  | busy
  | done
  | fault
deriving DecidableEq, Repr

/-- The three errors (R80). STATUS.ERR is an `Option FaultCode`, `none` being NONE (R12, R45). -/
inductive FaultCode where
  | invalidDimensions
  | bufferTooSmall
  | outputSizeMismatch
deriving DecidableEq, Repr

/-- Sparse memory: cells by rising address, each address once. An address that is not listed holds nothing that is
known: what it reads as is a free value (R93). `Memory 8` is a list of `Host.Cell`. -/
abbrev Memory (w : Nat) := List (Nat × BitVec w)

/-- A buffer HOST has bound to one of the two spaces (R26, R27): its true length, the cells that are known, and a tag
that tells its unspecified contents from another buffer's (log 7). -/
structure Buffer (w : Nat) where
  size : Nat
  tag : Nat
  cells : Memory w
deriving DecidableEq, Repr

/-- What HOST does in one turn (R72, R73, R75, R76). -/
inductive HostOp where
  /-- HostWrite(r, d): R72. -/
  | write (r : Nat) (d : HostWord)
  /-- HostRead(r): R73. -/
  | read (r : Nat)
  /-- HOST puts one byte into FRAME; FILL FRAME of R48 is one such turn for each byte. -/
  | putByte (a : Nat) (b : Byte)
  /-- HOST reads one byte of FRAME, harmless at any time (R96). -/
  | getByte (a : Nat)
  /-- HOST puts one word into PIX, its own buffer outside a decode (R36). -/
  | putPixel (p : Nat) (v : Pixel)
  /-- HOST reads one word of PIX (R75 step 5a). -/
  | getPixel (p : Nat)
  /-- HOST binds a buffer of `n` bytes to FRAME (R75 step 1), in which it has already placed the bytes `known`, later
  entries over earlier ones (R94: placing and binding come in either order). -/
  | bindFrame (n : Nat) (known : List (Nat × Byte))
  /-- HOST binds a buffer of `n` words to PIX (R75 step 1), of which it knows the words `known`. -/
  | bindPix (n : Nat) (known : List (Nat × Pixel))
deriving DecidableEq, Repr

/-- Who moves (R76): CORE, HOST, or the reset input. -/
inductive Turn where
  | core
  | host (op : HostOp)
  | reset
deriving DecidableEq, Repr

/-- Everything the spec gives the machine, and what HOST does next. -/
structure State where
  /-- STATUS.STATE (R12). -/
  state : CoreState
  /-- STATUS.ERR (R12). -/
  err : Option FaultCode
  /-- WIDTH, register 2 (R13). -/
  width : Dim
  /-- HEIGHT, register 3 (R14). -/
  height : Dim
  /-- FRAME_LEN, register 4 (R15). -/
  frameLen : Index
  /-- OUT_CAP, register 5 (R16). -/
  outCap : Index
  /-- I, register 6 (R17). -/
  i : Index
  /-- K, register 7 (R18). -/
  k : Index
  /-- OPY, register 8 (R19). -/
  opy : Operand
  /-- OPU, register 9 (R20). -/
  opu : Operand
  /-- OPV, register 10 (R21). -/
  opv : Operand
  /-- PIXOUT, register 11 (R22). -/
  pixout : Pixel
  /-- The space FRAME (R26). -/
  frame : Buffer 8
  /-- The space PIX (R27). -/
  pix : Buffer 32
  /-- The MODEL's own: what happens next, oldest first (log 1). -/
  turns : List Turn
  /-- The MODEL's own: the data word the latest host read returned (log 3). -/
  hostData : HostWord
  /-- The MODEL's own: the old value of each FRAME byte HOST changed during the running decode (R96, log 10). -/
  stale : Memory 8
  /-- The MODEL's own: the contents of PIX when the running decode was accepted (R97, R92, log 11). -/
  pixOld : Memory 32
  /-- The MODEL's own: N of the latest decode accepted into the buffer now bound to PIX; `none` where none has been since
  it was bound (R100, log 21). -/
  pixFrame : Option Nat
  /-- The MODEL's own: the counter free values are drawn with (log 13). -/
  draws : Nat
deriving DecidableEq, Repr

/-- What stops the machine where HOST does what cannot be done. The three errors of the spec are no such stop: taking
one is a next state (R85). -/
inductive Fault where
  /-- Raised by a host access to FRAME at an index that does not exist (R26: "Addresses a >= L do not exist"). Safe:
  the model stops where the spec gives nothing. -/
  | noSuchFrameByte
deriving DecidableEq, Repr

/-- What the model gives no meaning to. -/
inductive Refusal where
  /-- An instruction whose meaning is not written; no arm of `exec` answers it. Safe. -/
  | notModelled (mnemonic : String)
  /-- Raised by a block step that would write a word outside PIX, because OUT_CAP overstates the buffer (R98: "the
  model has no meaning for a write outside PIX"). Safe. -/
  | coreWriteOutsidePix
  /-- Raised by a host access to PIX at an index that does not exist: a read at or beyond the N of the decode whose result
  PIX holds (R100, U13: refuse), or a read or write beyond the buffer (R27). Safe. -/
  | hostOutsidePix
  /-- Raised by a host write of PIX while STATE is BUSY (R97, U3: "a write is refuse"). Safe. -/
  | hostPixWriteWhileBusy
  /-- Raised by HOST binding a buffer while STATE is BUSY (R94: binding precedes the DECODE; the spec gives no effect to
  it during one). Safe. -/
  | bindWhileBusy
deriving DecidableEq, Repr

/-- A buffer that holds nothing known and spans the whole 32-bit index space (R26, R93). DESIGN CHOICE (log 6). -/
def freshBuffer (w : Nat) : Buffer w where
  size := 2 ^ 32
  tag := 0
  cells := []

/-- The machine right after reset (R93); FRAME and PIX unspecified, nothing pending. -/
def State.reset : State where
  state := .idle
  err := none
  width := 0#16
  height := 0#16
  frameLen := 0#32
  outCap := 0#32
  i := 0#32
  k := 0#32
  opy := 0#16
  opu := 0#16
  opv := 0#16
  pixout := 0x00000000#32
  frame := freshBuffer 8
  pix := freshBuffer 32
  turns := []
  hostData := 0#32
  stale := []
  pixOld := []
  pixFrame := none
  draws := 0

end Sys2Proof.Machine
end

