-- ==== Sys2Proof/Machine/Ops.lean ====
section
/-! DEFINITION. The named operations over memory and registers: reading and writing the two spaces, the named updates
of State, taking a fault (spec/60_exceptions.md R85) and leaving one (R86). -/

namespace Sys2Proof.Machine

/-- What a memory holds at an address; `none` where nothing is known of it. -/
def Memory.read {w : Nat} : Memory w → Nat → Option (BitVec w)
  | [], _ => none
  | (b, v) :: m, a => if a = b then some v else Memory.read m a

/-- Set what a memory holds at an address; `none` makes it unknown. Keeps the addresses rising. -/
def Memory.put {w : Nat} : Memory w → Nat → Option (BitVec w) → Memory w
  | [], _, none => []
  | [], a, some v => [(a, v)]
  | (b, x) :: m, a, o =>
    if a < b then
      match o with
      | none => (b, x) :: m
      | some v => (a, v) :: (b, x) :: m
    else if a = b then
      match o with
      | none => m
      | some v => (a, v) :: m
    else (b, x) :: Memory.put m a o

/-- A write replaces the whole cell (R33). -/
def Memory.write {w : Nat} (m : Memory w) (a : Nat) (v : BitVec w) : Memory w := Memory.put m a (some v)

/-- Several writes, one at a time, in the order of the list (R36). -/
def Memory.writeAll {w : Nat} (m : Memory w) (ws : List (Nat × BitVec w)) : Memory w :=
  ws.foldl (fun m x => Memory.write m x.1 x.2) m

/-- A memory whose addresses below `n` are set one by one, each to what `f` gives it. -/
def Memory.putRange {w : Nat} (m : Memory w) (n : Nat) (f : Nat → Option (BitVec w)) : Memory w :=
  (List.range n).foldl (fun m p => Memory.put m p (f p)) m

/-- The canonical form: addresses strictly rising. An unlisted address reads as `none`, which no entry is, so no entry
is equal to what an unlisted address reads as. -/
abbrev Memory.wf {w : Nat} (m : Memory w) : Prop := (m.map Prod.fst).Pairwise (· < ·)

/-- A buffer's canonical form: its cells rise, and none lies beyond its end (R26, R27). -/
abbrev Buffer.wf {w : Nat} (b : Buffer w) : Prop := Memory.wf b.cells ∧ ∀ c ∈ b.cells, c.1 < b.size

/-- The byte a FRAME buffer holds at an index (R26); where nothing has written it, a free value (R93, log 4). -/
def frameStored (b : Buffer 8) (a : Nat) : Byte := (Memory.read b.cells a).getD (Config.unwrittenByte b.tag a)

/-- The word a PIX buffer holds at an index (R27); where nothing has written it, a free value (R93, log 5). -/
def pixStored (b : Buffer 32) (p : Nat) : Pixel := (Memory.read b.cells p).getD (Config.unwrittenPixel b.tag p)

/-- The buffer with one cell written. -/
def Buffer.store {w : Nat} (b : Buffer w) (a : Nat) (v : BitVec w) : Buffer w :=
  { b with cells := Memory.write b.cells a v }

/-- A buffer of `n` cells just bound, with what the host has placed in it (R94); the rest of its contents is unspecified
(R93, log 7). An entry beyond the end of the buffer is in no cell of it. -/
def boundBuffer (w n tag : Nat) (known : List (Nat × BitVec w)) : Buffer w where
  size := n
  tag := tag
  cells := Memory.writeAll [] (known.filter fun c => decide (c.1 < n))

/-- What happens next, replaced. -/
def State.withTurns (s : State) (ts : List Turn) : State := { s with turns := ts }

/-- HOST receives a data word (R73). -/
def State.withHostData (s : State) (d : HostWord) : State := { s with hostData := d }

/-- PIXOUT is written (R22). -/
def State.withPixout (s : State) (v : Pixel) : State := { s with pixout := v }

/-- The space FRAME is replaced. -/
def State.withFrame (s : State) (b : Buffer 8) : State := { s with frame := b }

/-- The space PIX is replaced. -/
def State.withPix (s : State) (b : Buffer 32) : State := { s with pix := b }

/-- The N of the decode whose result PIX holds, replaced (R100, log 21). -/
def State.withPixFrame (s : State) (o : Option Nat) : State := { s with pixFrame := o }

/-- The old values of the FRAME bytes HOST changed during the running decode (log 10). -/
def State.withStale (s : State) (m : Memory 8) : State := { s with stale := m }

/-- One free value has been drawn (log 13). -/
def State.drawn (s : State) : State := { s with draws := s.draws + 1 }

/-- I and K are written (R17, R18). -/
def State.withIndices (s : State) (i k : Index) : State := { s with i := i, k := k }

/-- Words of PIX written by CORE, in order (R33, R36). -/
def State.storePixels (s : State) (ws : List (Nat × Pixel)) : State :=
  s.withPix { s.pix with cells := Memory.writeAll s.pix.cells ws }

/-- `raise E()`, fault entry (R85): ERR and STATE are written and nothing else. There is no handler, no vector and no
saved context. -/
def State.raise (s : State) (e : FaultCode) : State := { s with err := some e, state := .fault }

/-- How every accepted DECODE begins (R50): ERR, I and K are cleared. It is also the only way, but for reset, that a
fault is left (R86). -/
def State.beginDecode (s : State) : State := { s with err := none, i := 0#32, k := 0#32 }

/-- STATE becomes BUSY (R50). The contents of PIX at this moment are the old values of R97 (log 11); no byte of FRAME
has yet changed during the decode (R96). -/
def State.enterBusy (s : State) : State := { s with state := .busy, stale := [], pixOld := s.pix.cells }

/-- STATE becomes DONE (R55): every word is final (R37), so the old values of the decode are forgotten. -/
def State.enterDone (s : State) : State := { s with state := .done, stale := [], pixOld := [] }

end Sys2Proof.Machine
end

