-- ==== Sys2Proof/Machine/Operands.lean ====
section
/-! DEFINITION. How operands are assembled: spec/30_encoding.md R40, R41, R46, R49; spec/40_frame_decoder.md R56. -/

namespace Sys2Proof.Machine

/-- The signed value of a 16-bit register (R5: sval_16; R46). -/
def sval16 (r : BitVec 16) : Int := r.toInt

/-- A 16-bit register as a host read returns it (R5: sext_32; R49). -/
def sext32 (r : BitVec 16) : HostWord := r.signExtend 32

/-- What a host write stores in a 16-bit register: d[15:0]; d[31:16] is dropped unchecked (R49). -/
def low16 (d : HostWord) : BitVec 16 := d.extractLsb' 0 16

/-- A luma sample: the byte as an unsigned integer (R40). -/
def luma (b : Byte) : Int := (b.toNat : Int)

/-- A chroma sample: the byte as an unsigned integer, less the bias of 128 (R41, R56). -/
def rebias (b : Byte) : Int := (b.toNat : Int) - (Config.chip.chromaBias : Int)

/-- W, the signed value of WIDTH (R5, R46). -/
def State.dimW (s : State) : Int := sval16 s.width

/-- H, the signed value of HEIGHT (R5, R46). -/
def State.dimH (s : State) : Int := sval16 s.height

/-- W as the address computations use it. They run only while BUSY, where validation has shown W > 0 (R51); in a state
that no run reaches, with W < 0, it is 0 (log 16). -/
def State.frameW (s : State) : Nat := s.dimW.toNat

/-- H as the address computations use it; see `State.frameW`. -/
def State.frameH (s : State) : Nat := s.dimH.toNat

/-- N = W*H, the source's offset: where the chroma plane starts, and the number of pixels (R5, R52). -/
def State.frameN (s : State) : Nat := s.frameW * s.frameH

end Sys2Proof.Machine
end

