-- ==== Sys2Proof/Machine/ColorTransform.lean ====
section
/-! DEFINITION. The Color Transform and the command XFORM: spec/00_scope.md R6, R7; spec/41_color_transform.md R60 to
R65. Integers are exact; the only inexact operation is the truncating division (R66). -/

namespace Sys2Proof.Machine

/-- Truncating division (R6): the quotient of the magnitudes, with the sign of the dividend. -/
def tq (n : Int) (d : Nat) : Int :=
  if 0 ≤ n then ((n.natAbs / d : Nat) : Int) else -((n.natAbs / d : Nat) : Int)

/-- Saturation to 0..255 (R7). -/
def clamp8 (x : Int) : Nat :=
  if x < 0 then 0 else if 255 < x then 255 else x.toNat

/-- The three truncated chroma contributions of R61. -/
structure ChromaTerms where
  tr : Int
  tg : Int
  tb : Int
deriving DecidableEq, Repr

/-- The three unclamped channels of R62. -/
structure Channels where
  r : Int
  g : Int
  b : Int
deriving DecidableEq, Repr

/-- ChromaTerms (R61). In green the two products are added before the one truncation (D25). -/
def chromaTerms (u v : Int) : ChromaTerms where
  tr := tq (Config.chip.cRV * v) Config.chip.cDen
  tg := tq (Config.chip.cGV * v + Config.chip.cGU * u) Config.chip.cDen
  tb := tq (Config.chip.cBU * u) Config.chip.cDen

/-- ChannelSums (R62). -/
def channelSums (y : Int) (t : ChromaTerms) : Channels where
  r := y + t.tr
  g := y - t.tg
  b := y + t.tb

/-- Pack (R64): the format of R42, with the constant alpha. -/
def pack (r g b : Nat) : Pixel :=
  (Config.chip.alpha.setWidth 32 <<< 24) ||| (BitVec.ofNat 32 r <<< 16) ||| (BitVec.ofNat 32 g <<< 8) ||| BitVec.ofNat 32 b

/-- Clamp and pack (R63, R64): each channel is saturated separately. -/
def packClamped (c : Channels) : Pixel := pack (clamp8 c.r) (clamp8 c.g) (clamp8 c.b)

/-- CT(y, u, v) (R60). -/
def ct (y u v : Int) : Pixel := packClamped (channelSums y (chromaTerms u v))

/-- XFORM (R65): ignored while BUSY; else PIXOUT takes CT of the operand registers, and nothing else changes. -/
def execXform (s : State) : Host.Outcome State Fault Refusal :=
  if s.state = .busy then .next s
  else .next (s.withPixout (ct (sval16 s.opy) (sval16 s.opu) (sval16 s.opv)))

end Sys2Proof.Machine
end

