-- ==== Sys2Proof/Machine/FrameDecoder.lean ====
section
/-! DEFINITION. The Frame Decoder and the command DECODE: spec/40_frame_decoder.md R50 to R59. -/

namespace Sys2Proof.Machine

/-- Validate (R51): the first check that fails, in the order of R84. Made on register values only, in exact integers. -/
def validate (s : State) : Option FaultCode :=
  let W := s.dimW
  let H := s.dimH
  let N := W * H
  if W ≤ 0 ∨ H ≤ 0 ∨ W % 2 = 1 ∨ H % 2 = 1 then some .invalidDimensions
  else if (s.frameLen.toNat : Int) < N + N / 2 then some .bufferTooSmall
  else if (s.outCap.toNat : Int) ≠ N then some .outputSizeMismatch
  else none

/-- DECODE (R50): ignored while BUSY; else ERR, I and K are cleared, the registers are validated, and the core either
takes the fault (R85) or becomes BUSY. PIX is from then on the buffer of a frame of N pixels (R100). -/
def execDecode (s : State) : Host.Outcome State Fault Refusal :=
  if s.state = .busy then .next s
  else
    match validate s.beginDecode with
    | some e => .next (s.beginDecode.raise e)
    | none => .next (s.beginDecode.enterBusy.withPixFrame (some s.frameN))

/-- MemRead(a, 1) on FRAME, as CORE makes it during a decode (R8, R26). A byte HOST changed meanwhile is its old or its
new value (R96); at or beyond the real end of the buffer it is whatever the platform returns (R98). -/
def State.frameByte (s : State) (a : Nat) : Byte :=
  if a < s.frame.size then
    match Memory.read s.stale a with
    | none => frameStored s.frame a
    | some old => if Config.seesNewByte s.draws a then frameStored s.frame a else old
  else Config.beyondFrame s.draws a

/-- The four luma addresses of a block, which are also its pixel indices (R52): top left, top right, bottom left,
bottom right. -/
def blockAddrs (w i : Nat) : List Nat := [i, i + 1, i + w, i + w + 1]

/-- The two chroma addresses of a block, V first (R52). -/
def chromaAddrs (n k : Nat) : List Nat := [n + k, n + k + 1]

/-- The block temporaries of one block step (R23): four luma samples, and the rebiased chroma pair. -/
structure Block where
  y1 : Int
  y2 : Int
  y3 : Int
  y4 : Int
  v : Int
  u : Int
deriving DecidableEq, Repr

/-- The six reads of a block step (R52, R53); V is the first byte of the pair and U the second (R29). -/
def State.readBlock (s : State) : Block :=
  let i := s.i.toNat
  let k := s.k.toNat
  { y1 := luma (s.frameByte i)
    y2 := luma (s.frameByte (i + 1))
    y3 := luma (s.frameByte (i + s.frameW))
    y4 := luma (s.frameByte (i + s.frameW + 1))
    v := rebias (s.frameByte (s.frameN + k))
    u := rebias (s.frameByte (s.frameN + k + 1)) }

/-- The four writes of a block step, in order (R53): each pixel at the flat index of its own luma sample (R52). -/
def State.blockPixels (s : State) : List (Nat × Pixel) :=
  let b := s.readBlock
  (blockAddrs s.frameW s.i.toNat).zip [ct b.y1 b.u b.v, ct b.y2 b.u b.v, ct b.y3 b.u b.v, ct b.y4 b.u b.v]

/-- The new luma index (R54): past the two samples consumed, and past the odd row at the end of a block row. -/
def advanceI (w i : Nat) : Nat :=
  let p := i + 2
  if p % w = 0 then p + w else p

/-- Advance (R54): I by `advanceI`, K by 2. -/
def State.advance (s : State) : State :=
  s.withIndices (BitVec.ofNat 32 (advanceI s.frameW s.i.toNat)) (BitVec.ofNat 32 (s.k.toNat + 2))

/-- Termination (R55): the decode is done when I = N. -/
def State.finishIfDone (s : State) : State :=
  if s.i.toNat = s.frameN then s.enterDone else s

/-- BlockStep (R53), the step of CORE: six reads, four writes, Advance, and DONE on the last. It is refused where a
word would fall outside the buffer really bound to PIX (R98). -/
def blockStep (s : State) : Host.Outcome State Fault Refusal :=
  if s.blockPixels.all (fun x => decide (x.1 < s.pix.size)) then
    .next (s.storePixels s.blockPixels).drawn.advance.finishIfDone
  else .refused .coreWriteOutsidePix

/-- A turn of CORE (R10, R53): a block step while BUSY, nothing at any other time. -/
def coreTurn (s : State) : Host.Outcome State Fault Refusal :=
  if s.state = .busy then blockStep s else .next s

/-- R57: the value of I when the `t`-th block step starts. -/
def blockI (w t : Nat) : Nat := 2 * (t / (w / 2)) * w + 2 * (t % (w / 2))

/-- R57: the value of K when the `t`-th block step starts. -/
def blockK (t : Nat) : Nat := 2 * t

/-- R59: (I, K) at the blocks of the nested loop the source recommends, in the loop's order. -/
def nestedLoop (w h : Nat) : List (Nat × Nat) :=
  (List.range (h / 2)).flatMap fun br => (List.range (w / 2)).map fun bc => (2 * br * w + 2 * bc, br * w + 2 * bc)

/-- R29: where the V byte of the block of pixel `p` lies, for a frame of width `w` and `n` pixels. U follows it. -/
def chromaAddr (w n p : Nat) : Nat := n + (p / w / 2) * w + 2 * (p % w / 2)

/-- R58: the word a decode leaves at `PIX[p]`, for the bytes that `f` gives. -/
def decodedPixel (f : Nat → Byte) (w n p : Nat) : Pixel :=
  ct (luma (f p)) (rebias (f (chromaAddr w n p + 1))) (rebias (f (chromaAddr w n p)))

/-- R57, the other way round: the number of the block that the pixel `p` belongs to, for a frame of width `w`. -/
def blockOfPixel (w p : Nat) : Nat := (p / w / 2) * (w / 2) + p % w / 2

/-- Whether the running decode has already written `PIX[p]`: its block comes before the one K stands at (R57). -/
def State.pixelWritten (s : State) (p : Nat) : Bool := decide (blockK (blockOfPixel s.frameW p) < s.k.toNat)

/-- The final value of `PIX[p]` under the running decode (R58): the word itself once written. -/
def State.finalPixel (s : State) (p : Nat) : Pixel :=
  if s.pixelWritten p then pixStored s.pix p else decodedPixel s.frameByte s.frameW s.frameN p

/-- What is known of `PIX[p]` while the running decode has not ended: for p < N its old or its final value, by a free
choice (R97, R92, U3, U14); a word the decode does not write is as it stands. -/
def State.unsettledPixel (s : State) (p : Nat) : Option Pixel :=
  if p < s.frameN then
    if Config.seesFinalPixel s.draws p then some (s.finalPixel p) else Memory.read s.pixOld p
  else Memory.read s.pix.cells p

end Sys2Proof.Machine
end

