-- ==== Sys2Proof/Machine/Flags.lean ====
section
/-! DEFINITION. The STATUS word, the only flag-like state of the core: spec/10_state.md R12, spec/30_encoding.md R45. -/

namespace Sys2Proof.Machine

/-- The code of STATUS.STATE (R45). -/
def stateCode : CoreState → BitVec 2
  | .idle => 0#2
  | .busy => 1#2
  | .done => 2#2
  | .fault => 3#2

/-- The code of STATUS.ERR, 0 being NONE (R45, R80). -/
def errCode : Option FaultCode → BitVec 2
  | none => 0#2
  | some .invalidDimensions => 1#2
  | some .bufferTooSmall => 2#2
  | some .outputSizeMismatch => 3#2

/-- STATUS as a word: ERR in bits 3:2, STATE in bits 1:0, bits 31:4 read as 0 (R45). -/
def State.statusWord (s : State) : HostWord := 0#28 ++ errCode s.err ++ stateCode s.state

end Sys2Proof.Machine
end

