-- ==== Sys2Proof/Machine/HostInterface.lean ====
section
/-! DEFINITION. What HOST does to the core and to its buffers, and reset: spec/42_host_interface.md R72 to R76,
spec/70_reset_and_hazards.md R92 to R100. -/

namespace Sys2Proof.Machine

/-- A command word presented to the core (R11, R44, R72): the command it selects is executed; a reserved word selects
nothing and is ignored (R47). -/
def commandWrite (d : CommandWord) (s : State) : Host.Outcome State Fault Refusal :=
  match decode d with
  | .ok i => exec i s
  | .error _ => .next s

/-- HostWrite(r, d) (R72). Every write is ignored while BUSY (R74); writes of read-only and of reserved registers are
ignored (R47). -/
def hostWrite (r : Nat) (d : HostWord) (s : State) : Host.Outcome State Fault Refusal :=
  if s.state = .busy then .next s
  else
    match r with
    | 0 => commandWrite d s
    | 2 => .next { s with width := low16 d }
    | 3 => .next { s with height := low16 d }
    | 4 => .next { s with frameLen := d }
    | 5 => .next { s with outCap := d }
    | 8 => .next { s with opy := low16 d }
    | 9 => .next { s with opu := low16 d }
    | 10 => .next { s with opv := low16 d }
    | _ => .next s

/-- The word HostRead(r) returns (R73): CMD and the reserved registers read 0, 16-bit registers sign-extended. -/
def readReg (r : Nat) (s : State) : HostWord :=
  match r with
  | 1 => s.statusWord
  | 2 => sext32 s.width
  | 3 => sext32 s.height
  | 4 => s.frameLen
  | 5 => s.outCap
  | 6 => s.i
  | 7 => s.k
  | 8 => sext32 s.opy
  | 9 => sext32 s.opu
  | 10 => sext32 s.opv
  | 11 => s.pixout
  | _ => 0#32

/-- HOST is about to change a FRAME byte: during a decode, and only then, its old value is kept (R96). Where HOST has
changed the byte before, one of the two values it has had is kept, by a free choice, so that the core may yet read any
of the three (log 10). -/
def State.recordChange (s : State) (a : Nat) : State :=
  if s.state = .busy then
    match Memory.read s.stale a with
    | none => s.withStale (Memory.write s.stale a (frameStored s.frame a))
    | some old =>
      (s.withStale (Memory.write s.stale a (if Config.seesNewByte s.draws a then frameStored s.frame a else old))).drawn
  else s

/-- HOST puts one byte into FRAME (R26, R48). During a decode the core may yet read the byte's old or its new value
(R96). -/
def hostPutByte (a : Nat) (b : Byte) (s : State) : Host.Outcome State Fault Refusal :=
  if a < s.frame.size then .next ((s.recordChange a).withFrame (s.frame.store a b))
  else .fault .noSuchFrameByte

/-- HOST reads one byte of FRAME: harmless in any state (R96). -/
def hostGetByte (a : Nat) (s : State) : Host.Outcome State Fault Refusal :=
  if a < s.frame.size then .next (s.withHostData ((frameStored s.frame a).setWidth 32))
  else .fault .noSuchFrameByte

/-- HOST puts one word into PIX: its own buffer outside a decode (R36), refused during one (R97, U3). -/
def hostPutPixel (p : Nat) (v : Pixel) (s : State) : Host.Outcome State Fault Refusal :=
  if s.state = .busy then .refused .hostPixWriteWhileBusy
  else if p < s.pix.size then .next (s.withPix (s.pix.store p v))
  else .refused .hostOutsidePix

/-- The first index of PIX that HOST may not read: the N of the decode whose result PIX holds (R100, U13: the index is
outside PIX), or the end of the buffer where no decode has been accepted into it (R27, R93; log 21). -/
def State.pixEnd (s : State) : Nat :=
  match s.pixFrame with
  | none => s.pix.size
  | some n => min n s.pix.size

/-- HOST reads one word of PIX. Outside a decode it is the word that stands there (R37); during one it is the old or
the final word (R97). An index outside PIX is refused (R100). -/
def hostGetPixel (p : Nat) (s : State) : Host.Outcome State Fault Refusal :=
  if p < s.pixEnd then
    if s.state = .busy then
      .next (s.withHostData ((s.unsettledPixel p).getD (Config.unwrittenPixel s.pix.tag p))).drawn
    else .next (s.withHostData (pixStored s.pix p))
  else .refused .hostOutsidePix

/-- HOST binds another buffer to FRAME (R75 step 1, R94), with the bytes it has placed there; what it has not placed is
unspecified until HOST fills it. -/
def hostBindFrame (n : Nat) (known : List (Nat × Byte)) (s : State) : Host.Outcome State Fault Refusal :=
  if s.state = .busy then .refused .bindWhileBusy
  else .next (s.withFrame (boundBuffer 8 n (s.draws + 1) known)).drawn

/-- HOST binds another buffer to PIX (R75 step 1, R94), with the words it knows of it; the others are unspecified until
something writes them. It holds the result of no decode. -/
def hostBindPix (n : Nat) (known : List (Nat × Pixel)) (s : State) : Host.Outcome State Fault Refusal :=
  if s.state = .busy then .refused .bindWhileBusy
  else .next ((s.withPix (boundBuffer 32 n (s.draws + 1) known)).withPixFrame none).drawn

/-- One turn of HOST (R76). -/
def hostTurn (op : HostOp) (s : State) : Host.Outcome State Fault Refusal :=
  match op with
  | .write r d => hostWrite r d s
  | .read r => .next (s.withHostData (readReg r s))
  | .putByte a b => hostPutByte a b s
  | .getByte a => hostGetByte a s
  | .putPixel p v => hostPutPixel p v s
  | .getPixel p => hostGetPixel p s
  | .bindFrame n known => hostBindFrame n known s
  | .bindPix n known => hostBindPix n known s

/-- What PIX holds after a reset (R92). Reset does not access PIX; where it interrupts a decode, each word the decode
was to write holds its old or its final value (U14). -/
def State.pixAfterReset (s : State) : Buffer 32 :=
  if s.state = .busy then
    { s.pix with cells := Memory.putRange s.pix.cells (min s.frameN s.pix.size) s.unsettledPixel }
  else s.pix

/-- Reset (R92, R93): in any state, every register takes its reset value and a decode in progress is abandoned. FRAME
is not touched, and the buffers stay bound. -/
def resetTurn (s : State) : State where
  state := .idle
  err := none
  width := 0#16
  height := 0#16
  frameLen := 0#32
  outCap := 0#32
  i := 0#32
  k := 0#32
  opy := 0#16
  opu := 0#16
  opv := 0#16
  pixout := 0x00000000#32
  frame := s.frame
  pix := s.pixAfterReset
  turns := s.turns
  hostData := s.hostData
  stale := []
  pixOld := []
  pixFrame := s.pixFrame
  draws := s.draws + 1

/-- One turn of the system (R76). -/
def takeTurn (t : Turn) (s : State) : Host.Outcome State Fault Refusal :=
  match t with
  | .core => coreTurn s
  | .host op => hostTurn op s
  | .reset => .next (resetTurn s)

/-- The host transaction that presents the `nbits` low bits of `w` as a command word, every higher bit 0 (R43). -/
def commandTurn (nbits w : Nat) : Turn := .host (.write 0 (BitVec.ofNat 32 (w % 2 ^ nbits)))

end Sys2Proof.Machine
end

