-- ==== Sys2Proof/Machine/Step.lean ====
section
/-! DEFINITION. One step of the system: spec/42_host_interface.md R76. -/

namespace Sys2Proof.Machine

/-- One step: the next turn is taken. With no turn listed CORE moves, so that CORE is never starved (R76); an idle core
then stays as it is (R10). -/
def step (s : State) : Host.Outcome State Fault Refusal :=
  match s.turns with
  | [] => coreTurn s
  | t :: rest => takeTurn t (s.withTurns rest)

/-- The state in which the next thing that happens is that HOST writes this command word to CMD: a command is executed
at the moment it is written, and from nowhere else (R11; log 2). -/
def State.withFetchWord (s : State) (nbits w : Nat) : State := s.withTurns (commandTurn nbits w :: s.turns)

end Sys2Proof.Machine
end

