-- ==== Sys2Proof/Safety.lean ====
section
/-! DEFINITION. What counts as a legal state and as a safe run, in the terms the statements use. -/

namespace Sys2Proof.Machine

/-- FRAME_LEN and OUT_CAP say no more than is really bound (R98): FRAME holds at least FRAME_LEN bytes, and PIX exactly
OUT_CAP words. It is HOST's duty; the core cannot see it. -/
abbrev State.truthful (s : State) : Prop := s.frameLen.toNat ≤ s.frame.size ∧ s.outCap.toNat = s.pix.size

/-- Validation passes (R51): the state can accept a DECODE without a fault. -/
abbrev State.valid (s : State) : Prop := validate s = none

/-- Both spaces, and the memories kept beside them, are in canonical form. -/
abbrev State.memoriesWf (s : State) : Prop :=
  s.frame.wf ∧ s.pix.wf ∧ Memory.wf s.stale ∧ Memory.wf s.pixOld

/-- R12: ERR is not NONE exactly when STATE is FAULT. -/
abbrev State.errOnlyInFault (s : State) : Prop := s.err.isSome = true ↔ s.state = .fault

/-- The table of 10_state.md section 4: what I and K are in each STATE. While BUSY the registers still validate (R74),
and K stands at a block of the sequence of R57, with I where that block begins. After DONE, I is the N of the decode
that ended and K is N/2 (R17, R18); N is a positive multiple of 4, whatever WIDTH holds by then. -/
def State.indicesLegal (s : State) : Prop :=
  match s.state with
  | .idle => s.i = 0#32 ∧ s.k = 0#32
  | .fault => s.i = 0#32 ∧ s.k = 0#32
  | .busy =>
    s.valid ∧ ∃ t, t < s.frameN / 4 ∧ s.i.toNat = blockI s.frameW t ∧ s.k.toNat = blockK t
  | .done => 4 ∣ s.i.toNat ∧ 0 < s.i.toNat ∧ s.i.toNat = 2 * s.k.toNat

/-- R22: PIXOUT is its reset value or a word the Color Transform makes, whose alpha byte is 0xFF. -/
abbrev State.pixoutLegal (s : State) : Prop := s.pixout = 0x00000000#32 ∨ s.pixout.extractLsb' 24 8 = 0xFF#8

/-- R24: nothing is retained from a decode that is over. -/
abbrev State.nothingRetained (s : State) : Prop := s.state ≠ .busy → s.stale = [] ∧ s.pixOld = []

/-- R100, log 21: while BUSY, PIX is the buffer of the running decode, whose N is W*H; after DONE it is that of the decode
that ended, whose N is I, unless HOST has bound another buffer since. -/
abbrev State.pixFrameLegal (s : State) : Prop :=
  (s.state = .busy → s.pixFrame = some s.frameN) ∧
    (s.state = .done → s.pixFrame = none ∨ s.pixFrame = some s.i.toNat)

/-- The legal states: what holds at reset and every step keeps. -/
structure State.Inv (s : State) : Prop where
  memories : s.memoriesWf
  err : s.errOnlyInFault
  indices : s.indicesLegal
  pixout : s.pixoutLegal
  retained : s.nothingRetained
  pixFrame : s.pixFrameLegal

/-- The core's registers that HOST programs: no step of CORE writes them (R13 to R16, R19 to R21). -/
abbrev sameParameters (s t : State) : Prop :=
  t.width = s.width ∧ t.height = s.height ∧ t.frameLen = s.frameLen ∧ t.outCap = s.outCap ∧
    t.opy = s.opy ∧ t.opu = s.opu ∧ t.opv = s.opv

/-- STATUS, I and K as before (R12, R17, R18). -/
abbrev sameStatus (s t : State) : Prop := t.state = s.state ∧ t.err = s.err ∧ t.i = s.i ∧ t.k = s.k

/-- Every byte of FRAME reads as before, and the buffer is the same one. -/
abbrev sameFrame (s t : State) : Prop :=
  t.frame.size = s.frame.size ∧ ∀ a, frameStored t.frame a = frameStored s.frame a

/-- Every word of PIX reads as before but those whose index is in the list, and the buffer is the same one. -/
abbrev samePixBut (ps : List Nat) (s t : State) : Prop :=
  t.pix.size = s.pix.size ∧ ∀ p, p ∉ ps → pixStored t.pix p = pixStored s.pix p

/-- What only the model keeps is as before (logs 1, 3, 13). -/
abbrev sameHostSide (s t : State) : Prop := t.turns = s.turns ∧ t.hostData = s.hostData

/-- A turn that leaves a decode alone: CORE's own, or a host read of a register (R73, R76). -/
def Turn.isQuiet : Turn → Bool
  | .core => true
  | .host (.read _) => true
  | .host _ => false
  | .reset => false

/-- How many of the turns are CORE's. -/
def coreTurns : List Turn → Nat
  | [] => 0
  | .core :: ts => coreTurns ts + 1
  | .host _ :: ts => coreTurns ts
  | .reset :: ts => coreTurns ts

/-- `n` turns of CORE, one after another, stopping at the first that is no next state. -/
def coreSteps : Nat → State → Host.Outcome State Fault Refusal
  | 0, s => .next s
  | n + 1, s =>
    match coreTurn s with
    | .next t => coreSteps n t
    | .fault f => .fault f
    | .refused r => .refused r

/-- R81, negated: both dimensions are positive and even. -/
abbrev State.legalDims (s : State) : Prop := 0 < s.dimW ∧ 0 < s.dimH ∧ s.dimW % 2 = 0 ∧ s.dimH % 2 = 0

/-- R82, negated: FRAME_LEN covers both planes. -/
abbrev State.frameLongEnough (s : State) : Prop := s.dimW * s.dimH + s.dimW * s.dimH / 2 ≤ (s.frameLen.toNat : Int)

/-- R83, negated: OUT_CAP is the number of pixels. -/
abbrev State.capacityExact (s : State) : Prop := (s.outCap.toNat : Int) = s.dimW * s.dimH

/-- HOST has changed none of the frame's bytes since the decode began (R96). -/
abbrev State.frameStable (s : State) : Prop := ∀ a, Memory.read s.stale a = none

/-- `n` steps of the system, one after another, stopping at the first that is no next state. -/
def steps : Nat → State → Host.Outcome State Fault Refusal
  | 0, s => .next s
  | n + 1, s =>
    match step s with
    | .next t => steps n t
    | .fault f => .fault f
    | .refused r => .refused r

/-- A DECODE and the N/4 steps that follow it (R39, R55). -/
def decodeRun (s : State) : Host.Outcome State Fault Refusal :=
  match exec .decode s with
  | .next t => steps (s.frameN / 4) t
  | .fault f => .fault f
  | .refused r => .refused r

end Sys2Proof.Machine
end

