-- ==== Sys2Proof/Certificates/Slice0/Obligations.lean ====
section
/-! DEFINITION. The statements for the provers. Each docstring names the rule of spec/ it formalises. Nothing here rests
on the value of a free value: where one occurs, the statement holds for whatever it is. -/

open Sys2Proof Sys2Proof.Machine

section Encoding

/-- R44: `d = 1` selects DECODE, `d = 2` selects XFORM, anything else selects nothing. -/
def Obligations.CommandMapIsExact : Prop :=
  decode 0x00000001#32 = .ok .decode ∧ decode 0x00000002#32 = .ok .xform ∧
    ∀ d : CommandWord, d ≠ 0x00000001#32 → d ≠ 0x00000002#32 → ∃ e, decode d = .error e

/-- Decode and encode agree on every word and every command (R43, R44): the decoder reads a command from its own word
and from no other, and no bit of a word is dropped by the fields of CMDW. -/
def Obligations.DecodeAndEncodeAgree : Prop :=
  (∀ i : Instr, i.wf = true → decode (encode i) = .ok i) ∧
    (∀ (d : CommandWord) (i : Instr), decode d = .ok i → d = encode i) ∧
    (∀ d : CommandWord, cmdWord (cmdFields d) = d) ∧ (∀ c : CmdWord, cmdFields (cmdWord c) = c) ∧
    ∀ d : CommandWord, (cmdFields d).wf = true ↔ ∃ i, decode d = .ok i

/-- A few words of spec/opcode_table.json and of program P6, written out (a sanity statement). -/
def Obligations.TableWordsDecode : Prop :=
  decodeTableWord 32 0b00000000000000000000000000000001 = some .decode ∧
    decodeTableWord 32 0b00000000000000000000000000000010 = some .xform ∧
    decodeTableWord 32 0x00000000 = none ∧ decodeTableWord 32 0x00000003 = none ∧
    decodeTableWord 32 0x00000101 = none ∧ decodeTableWord 32 0x80000001 = none

/-- R47 (a): a write of a reserved word to CMD changes nothing but the list of what happens next. -/
def Obligations.ReservedCommandsAreIgnored : Prop :=
  ∀ (s : State) (d : CommandWord) (rest : List Turn), d ≠ 0x00000001#32 → d ≠ 0x00000002#32 →
    s.turns = .host (.write 0 d) :: rest → step s = .next (s.withTurns rest)

end Encoding

section Steps

/-- R11, R72, R76: a step whose turn is a HostWrite of a command's word to CMD runs that command, and around it only
removes the turn. -/
def Obligations.StepRunsTheCommandWritten : Prop :=
  ∀ (s : State) (d : CommandWord) (rest : List Turn) (i : Instr),
    s.turns = .host (.write 0 d) :: rest → decode d = .ok i → i.wf = true → step s = exec i (s.withTurns rest)

/-- R10, R76: CORE makes a block step in its turn while BUSY and does nothing in its turn otherwise. That with no turn
listed the turn is CORE's is the model's choice (log 1). -/
def Obligations.CoreMovesOnlyWhileBusy : Prop :=
  ∀ s : State,
    (s.turns = [] → s.state = .busy → step s = blockStep s) ∧
    (s.turns = [] → s.state ≠ .busy → step s = .next s) ∧
    (∀ rest, s.turns = .core :: rest → s.state = .busy → step s = blockStep (s.withTurns rest)) ∧
    (∀ rest, s.turns = .core :: rest → s.state ≠ .busy → step s = .next (s.withTurns rest))

end Steps

section ColorTransform

/-- R6: truncating division, with its remainder: `tq n d` is the quotient rounded toward zero. -/
def Obligations.TruncatingDivisionRoundsTowardZero : Prop :=
  ∀ (n : Int) (d : Nat), 0 < d →
    (0 ≤ n → tq n d = ((n.natAbs / d : Nat) : Int)) ∧ (n < 0 → tq n d = -((n.natAbs / d : Nat) : Int)) ∧
      tq (-n) d = -tq n d ∧
      (n - d * tq n d).natAbs < d ∧ (0 ≤ n → 0 ≤ n - d * tq n d) ∧ (n ≤ 0 → n - d * tq n d ≤ 0)

/-- R7: saturation; `clamp8 x` is the number in 0..255 nearest to x. -/
def Obligations.ClampSaturates : Prop :=
  ∀ x : Int, (x < 0 → clamp8 x = 0) ∧ (255 < x → clamp8 x = 255) ∧ (0 ≤ x → x ≤ 255 → (clamp8 x : Int) = x) ∧
    clamp8 x ≤ 255

/-- R40, R41, R56: a luma byte is unsigned, a chroma byte is unsigned less 128, and the bit-level view of R41: the
signed pattern of the result is the byte with bit 7 inverted. -/
def Obligations.SamplesAreReadAsEncoded : Prop :=
  ∀ b : Byte, luma b = (b.toNat : Int) ∧ rebias b = (b.toNat : Int) - 128 ∧ -128 ≤ rebias b ∧ rebias b ≤ 127 ∧
    (b ^^^ 0x80#8).toInt = rebias b

/-- R61: the three chroma terms, odd in (u, v), with their ranges on the nominal domain. -/
def Obligations.ChromaTermsAreExactAndOdd : Prop :=
  ∀ u v : Int,
    (chromaTerms u v).tr = tq (1772 * v) 1000 ∧ (chromaTerms u v).tg = tq (344 * v + 714 * u) 1000 ∧
    (chromaTerms u v).tb = tq (1402 * u) 1000 ∧
    (chromaTerms (-u) (-v)).tr = -(chromaTerms u v).tr ∧ (chromaTerms (-u) (-v)).tg = -(chromaTerms u v).tg ∧
    (chromaTerms (-u) (-v)).tb = -(chromaTerms u v).tb ∧
    (-128 ≤ u → u ≤ 127 → -128 ≤ v → v ≤ 127 →
      -226 ≤ (chromaTerms u v).tr ∧ (chromaTerms u v).tr ≤ 225 ∧ -135 ≤ (chromaTerms u v).tg ∧
        (chromaTerms u v).tg ≤ 134 ∧ -179 ≤ (chromaTerms u v).tb ∧ (chromaTerms u v).tb ≤ 178)

/-- R62: the channel sums do not wrap, and on the nominal domain stay in the ranges the rule gives; subtracting the
truncated green sum is adding the truncated negated sum. -/
def Obligations.ChannelSumsStayInRange : Prop :=
  ∀ y u v : Int,
    (channelSums y (chromaTerms u v)).r = y + (chromaTerms u v).tr ∧
    (channelSums y (chromaTerms u v)).g = y - (chromaTerms u v).tg ∧
    (channelSums y (chromaTerms u v)).g = y + tq (-(344 * v + 714 * u)) 1000 ∧
    (channelSums y (chromaTerms u v)).b = y + (chromaTerms u v).tb ∧
    (0 ≤ y → y ≤ 255 → -128 ≤ u → u ≤ 127 → -128 ≤ v → v ≤ 127 →
      -226 ≤ (channelSums y (chromaTerms u v)).r ∧ (channelSums y (chromaTerms u v)).r ≤ 480 ∧
      -134 ≤ (channelSums y (chromaTerms u v)).g ∧ (channelSums y (chromaTerms u v)).g ≤ 390 ∧
      -179 ≤ (channelSums y (chromaTerms u v)).b ∧ (channelSums y (chromaTerms u v)).b ≤ 433)

/-- R64: Pack of three channels in 0..255; the fields never overlap, so the OR is the same as a sum. -/
def Obligations.PackFieldsDoNotOverlap : Prop :=
  ∀ r g b : Nat, r ≤ 255 → g ≤ 255 → b ≤ 255 →
    pack r g b = 0xFF000000#32 ||| (BitVec.ofNat 32 r <<< 16) ||| (BitVec.ofNat 32 g <<< 8) ||| BitVec.ofNat 32 b ∧
      (pack r g b).toNat = 0xFF000000 + r * 2 ^ 16 + g * 2 ^ 8 + b

/-- R42, R60 to R64: the four bytes of a pixel, for every integer argument: alpha 0xFF, and each channel the saturated
sum of the luma and its truncated chroma term. -/
def Obligations.PixelBytesOfTheTransform : Prop :=
  ∀ y u v : Int,
    ((ct y u v).extractLsb' 24 8).toNat = 0xFF ∧
    ((ct y u v).extractLsb' 16 8).toNat = clamp8 (y + tq (1772 * v) 1000) ∧
    ((ct y u v).extractLsb' 8 8).toNat = clamp8 (y - tq (344 * v + 714 * u) 1000) ∧
    ((ct y u v).extractLsb' 0 8).toNat = clamp8 (y + tq (1402 * u) 1000)

/-- R69: the properties of CT: (b) alpha, (c) the grey axis, (d) monotonic in y, (e) channel independence (red reads y
and v, blue y and u, green all three), (f) and (g) the two fixed points of the source's section 8. Item (a) is that `ct`
is a function. -/
def Obligations.TransformProperties : Prop :=
  (∀ y u v : Int, (ct y u v).extractLsb' 24 8 = 0xFF#8) ∧
  (∀ y : Int, (ct y 0 0).toNat = 0xFF000000 + clamp8 y * 0x010101) ∧
  (∀ y y' u v : Int, y ≤ y' →
    (ct y u v).extractLsb' 16 8 ≤ (ct y' u v).extractLsb' 16 8 ∧
    (ct y u v).extractLsb' 8 8 ≤ (ct y' u v).extractLsb' 8 8 ∧
    (ct y u v).extractLsb' 0 8 ≤ (ct y' u v).extractLsb' 0 8) ∧
  (∀ y u u' v : Int, (ct y u v).extractLsb' 16 8 = (ct y u' v).extractLsb' 16 8) ∧
  (∀ y u v v' : Int, (ct y u v).extractLsb' 0 8 = (ct y u v').extractLsb' 0 8) ∧
  (∃ y y' u v : Int, (ct y u v).extractLsb' 8 8 ≠ (ct y' u v).extractLsb' 8 8) ∧
  (∃ y u u' v : Int, (ct y u v).extractLsb' 8 8 ≠ (ct y u' v).extractLsb' 8 8) ∧
  (∃ y u v v' : Int, (ct y u v).extractLsb' 8 8 ≠ (ct y u v').extractLsb' 8 8) ∧
  ct 255 0 0 = 0xFFFFFFFF#32 ∧ ct 0 0 0 = 0xFF000000#32 ∧
  ct 0 (-128) (-128) = 0xFF008700#32 ∧ ct 255 127 127 = 0xFFFF79FF#32

/-- R71: on the nominal range of numerators, dividing by 1000 is a multiplication and a shift. -/
def Obligations.DivisionByAThousandIsMultiplyAndShift : Prop :=
  ∀ n : Nat, n ≤ 226816 →
    tq (n : Int) 1000 = ((n * 67109) >>> 26 : Nat) ∧ tq (-(n : Int)) 1000 = -(((n * 67109) >>> 26 : Nat) : Int)

end ColorTransform

section Xform

/-- R65: XFORM. While BUSY it is ignored; else it completes, PIXOUT is CT of the operand registers as written, and
nothing else changes: STATUS, I, K, the parameter and operand registers, FRAME and PIX; repeating it changes
nothing. -/
def Obligations.XformWritesPixoutAlone : Prop :=
  ∀ s : State,
    (s.state = .busy → exec .xform s = .next s) ∧
    (s.state ≠ .busy → ∃ t, exec .xform s = .next t ∧
      t = { s with pixout := ct s.opy.toInt s.opu.toInt s.opv.toInt } ∧
      sameStatus s t ∧ sameParameters s t ∧ sameFrame s t ∧ samePixBut [] s t ∧ sameHostSide s t ∧
      exec .xform t = .next t)

/-- R22: no step but a reset or an XFORM that is accepted writes PIXOUT. -/
def Obligations.OnlyXformAndResetWritePixout : Prop :=
  ∀ s t : State, step s = .next t →
    t.pixout = s.pixout ∨ (∃ rest, s.turns = .reset :: rest) ∨
      (s.state ≠ .busy ∧ ∃ rest, s.turns = .host (.write 0 0x00000002#32) :: rest)

end Xform

section Decode

/-- R50, R51: a DECODE whose registers pass the three checks is accepted in IDLE, DONE and FAULT alike: STATE becomes
BUSY, ERR NONE, I and K 0; no parameter, operand or pixel register, no byte of FRAME and no word of PIX changes. -/
def Obligations.DecodeStartsOnValidRegisters : Prop :=
  ∀ s : State, s.state ≠ .busy → s.legalDims → s.frameLongEnough → s.capacityExact →
    ∃ t, exec .decode s = .next t ∧ t.state = .busy ∧ t.err = none ∧ t.i = 0#32 ∧ t.k = 0#32 ∧
      sameParameters s t ∧ t.pixout = s.pixout ∧ sameFrame s t ∧ samePixBut [] s t ∧ sameHostSide s t

/-- R81: InvalidDimensions is what DECODE reports exactly when W ≤ 0, H ≤ 0, W is odd or H is odd. -/
def Obligations.InvalidDimensionsExactly : Prop :=
  ∀ s : State, s.state ≠ .busy → ∃ t, exec .decode s = .next t ∧
    (t.err = some .invalidDimensions ↔ s.dimW ≤ 0 ∨ s.dimH ≤ 0 ∨ s.dimW % 2 = 1 ∨ s.dimH % 2 = 1)

/-- R82: BufferTooSmall is what DECODE reports exactly when the dimensions are legal and FRAME_LEN < N + N div 2; under
legal dimensions that bound is 3N/2 and N is a multiple of 4. -/
def Obligations.BufferTooSmallExactly : Prop :=
  ∀ s : State, s.state ≠ .busy → ∃ t, exec .decode s = .next t ∧
    (t.err = some .bufferTooSmall ↔
      s.legalDims ∧ (s.frameLen.toNat : Int) < s.dimW * s.dimH + s.dimW * s.dimH / 2) ∧
    (s.legalDims →
      s.dimW * s.dimH + s.dimW * s.dimH / 2 = 3 * (s.dimW * s.dimH) / 2 ∧ s.dimW * s.dimH % 4 = 0)

/-- R83: OutputSizeMismatch is what DECODE reports exactly when neither other fault is raised and OUT_CAP ≠ N. -/
def Obligations.OutputSizeMismatchExactly : Prop :=
  ∀ s : State, s.state ≠ .busy → ∃ t, exec .decode s = .next t ∧
    (t.err = some .outputSizeMismatch ↔
      s.legalDims ∧ s.frameLongEnough ∧ (s.outCap.toNat : Int) ≠ s.dimW * s.dimH)

/-- R85: fault entry. The faulting DECODE writes ERR, STATE, I and K and nothing else: FAULT with the code of the fault,
I and K 0, every other register as it was, no byte of FRAME and no word of PIX changed. STATUS then reads as R80's
table says. -/
def Obligations.FaultEntryWritesStatusAlone : Prop :=
  ∀ (s : State) (e : FaultCode), s.state ≠ .busy → validate s = some e →
    ∃ t, exec .decode s = .next t ∧ t.state = .fault ∧ t.err = some e ∧ t.i = 0#32 ∧ t.k = 0#32 ∧
      sameParameters s t ∧ t.pixout = s.pixout ∧ t.frame = s.frame ∧ t.pix = s.pix ∧ sameHostSide s t ∧
      t.statusWord = (match e with
        | .invalidDimensions => 0x00000007#32
        | .bufferTooSmall => 0x0000000B#32
        | .outputSizeMismatch => 0x0000000F#32)

/-- R24, R50 (a), R86: DECODE does not depend on the previous STATE, ERR, I and K: a previous fault or result is
overwritten, and the outcome is the same whatever came before. -/
def Obligations.DecodeForgetsThePreviousOutcome : Prop :=
  ∀ (s : State) (st : CoreState) (e : Option FaultCode) (i k : Index), s.state ≠ .busy → st ≠ .busy →
    exec .decode { s with state := st, err := e, i := i, k := k } = exec .decode s

/-- R50 (b), R74: a DECODE written while BUSY does not restart, cancel or queue. -/
def Obligations.DecodeWhileBusyDoesNothing : Prop :=
  ∀ s : State, s.state = .busy → exec .decode s = .next s

/-- R4: under legal dimensions no index or length of any rule wraps in 32 bits. -/
def Obligations.LegalSizesFitTheIndexRegisters : Prop :=
  ∀ s : State, s.legalDims → s.dimW ≤ 32766 ∧ s.dimH ≤ 32766 ∧ (s.frameN : Int) = s.dimW * s.dimH ∧
    s.frameN ≤ 1073610756 ∧ s.frameN + s.frameN / 2 ≤ 1610416134

end Decode

section HostRegisters

/-- R73: HostRead, register by register, in every state; it has no side effect but that HOST gets the word. -/
def Obligations.HostReadReturnsTheRegister : Prop :=
  ∀ (s : State) (r : Nat) (rest : List Turn), s.turns = .host (.read r) :: rest →
    ∃ d, step s = .next { s with turns := rest, hostData := d } ∧
      (r = 0 → d = 0#32) ∧ (r = 1 → d = s.statusWord) ∧ (r = 2 → d = s.width.signExtend 32) ∧
      (r = 3 → d = s.height.signExtend 32) ∧ (r = 4 → d = s.frameLen) ∧ (r = 5 → d = s.outCap) ∧ (r = 6 → d = s.i) ∧
      (r = 7 → d = s.k) ∧ (r = 8 → d = s.opy.signExtend 32) ∧ (r = 9 → d = s.opu.signExtend 32) ∧
      (r = 10 → d = s.opv.signExtend 32) ∧ (r = 11 → d = s.pixout) ∧ (12 ≤ r → d = 0#32)

/-- R72: HostWrite, register by register. While BUSY it does nothing. Else the one register named takes the word, or its
low half; writes of read-only and reserved registers do nothing; a write of CMD executes the command the word selects. -/
def Obligations.HostWriteStoresTheRegister : Prop :=
  ∀ (s : State) (r : Nat) (d : HostWord) (rest : List Turn), s.turns = .host (.write r d) :: rest →
    (s.state = .busy → step s = .next { s with turns := rest }) ∧
    (s.state ≠ .busy →
      (r = 2 → step s = .next { s with turns := rest, width := d.extractLsb' 0 16 }) ∧
      (r = 3 → step s = .next { s with turns := rest, height := d.extractLsb' 0 16 }) ∧
      (r = 4 → step s = .next { s with turns := rest, frameLen := d }) ∧
      (r = 5 → step s = .next { s with turns := rest, outCap := d }) ∧
      (r = 8 → step s = .next { s with turns := rest, opy := d.extractLsb' 0 16 }) ∧
      (r = 9 → step s = .next { s with turns := rest, opu := d.extractLsb' 0 16 }) ∧
      (r = 10 → step s = .next { s with turns := rest, opv := d.extractLsb' 0 16 }) ∧
      (r = 1 ∨ r = 6 ∨ r = 7 ∨ r = 11 ∨ 12 ≤ r → step s = .next { s with turns := rest }) ∧
      (r = 0 → d = 1#32 → step s = exec .decode { s with turns := rest }) ∧
      (r = 0 → d = 2#32 → step s = exec .xform { s with turns := rest }) ∧
      (r = 0 → d ≠ 1#32 → d ≠ 2#32 → step s = .next { s with turns := rest }))

/-- R49: what a register reads as after a write of it: the low half sign-extended, or the whole word. -/
def Obligations.WriteThenReadKeepsTheWidth : Prop :=
  ∀ (s : State) (r : Nat) (d : HostWord) (rest : List Turn), s.state ≠ .busy →
    s.turns = .host (.write r d) :: .host (.read r) :: rest →
      (r ∈ [2, 3, 8, 9, 10] → ∃ t, steps 2 s = .next t ∧ t.hostData = (d.extractLsb' 0 16).signExtend 32 ∧
        t.turns = rest) ∧
      (r ∈ [4, 5] → ∃ t, steps 2 s = .next t ∧ t.hostData = d ∧ t.turns = rest)

/-- R74: while BUSY every HostWrite is ignored, whatever the register and the word, and reads remain allowed; no step
but a reset changes a parameter or operand register or PIXOUT, so the dimensions a decode uses are constant from its
DECODE to its DONE; and a write is taken again as soon as STATE is not BUSY. -/
def Obligations.ParametersAreConstantWhileBusy : Prop :=
  (∀ (s : State) (r : Nat) (d : HostWord) (rest : List Turn), s.state = .busy →
    s.turns = .host (.write r d) :: rest → step s = .next (s.withTurns rest)) ∧
  (∀ (s : State) (r : Nat) (rest : List Turn), s.state = .busy → s.turns = .host (.read r) :: rest →
    step s = .next ((s.withTurns rest).withHostData (readReg r s))) ∧
  (∀ s t : State, s.state = .busy → (∀ rest, s.turns ≠ .reset :: rest) → step s = .next t →
    sameParameters s t ∧ t.pixout = s.pixout) ∧
  (∀ (s : State) (d : HostWord) (rest : List Turn), s.state ≠ .busy → s.turns = .host (.write 2 d) :: rest →
    ∃ t, step s = .next t ∧ t.width = d.extractLsb' 0 16)

/-- R13 to R16, R19 to R21: a parameter or operand register is written by a HostWrite of its own number, by a reset, and
by nothing else: never by CORE, never by a command. -/
def Obligations.ParametersAreWrittenByHostAlone : Prop :=
  ∀ s t : State, step s = .next t → (∀ rest, s.turns ≠ .reset :: rest) →
    (t.width = s.width ∨ ∃ d rest, s.turns = .host (.write 2 d) :: rest) ∧
    (t.height = s.height ∨ ∃ d rest, s.turns = .host (.write 3 d) :: rest) ∧
    (t.frameLen = s.frameLen ∨ ∃ d rest, s.turns = .host (.write 4 d) :: rest) ∧
    (t.outCap = s.outCap ∨ ∃ d rest, s.turns = .host (.write 5 d) :: rest) ∧
    (t.opy = s.opy ∨ ∃ d rest, s.turns = .host (.write 8 d) :: rest) ∧
    (t.opu = s.opu ∨ ∃ d rest, s.turns = .host (.write 9 d) :: rest) ∧
    (t.opv = s.opv ∨ ∃ d rest, s.turns = .host (.write 10 d) :: rest)

end HostRegisters

section Status

/-- R45: the fields of the STATUS word, and, in a legal state, the only six values that can ever be read. -/
def Obligations.StatusWordFields : Prop :=
  ∀ s : State,
    s.statusWord.extractLsb' 4 28 = 0#28 ∧
    s.statusWord.extractLsb' 2 2 = (match s.err with
      | none => 0#2
      | some .invalidDimensions => 1#2
      | some .bufferTooSmall => 2#2
      | some .outputSizeMismatch => 3#2) ∧
    s.statusWord.extractLsb' 0 2 = (match s.state with
      | .idle => 0#2
      | .busy => 1#2
      | .done => 2#2
      | .fault => 3#2) ∧
    (s.Inv → s.statusWord ∈ [0x0#32, 0x1#32, 0x2#32, 0x7#32, 0xB#32, 0xF#32])

/-- R12: STATUS is written by a reset, by an accepted DECODE, and by the block step that ends a decode (STATE becomes
DONE, ERR stays), and by nothing else; so XFORM and register writes never change it. -/
def Obligations.StatusIsWrittenByCoreAlone : Prop :=
  ∀ s t : State, step s = .next t →
    (t.state = s.state ∧ t.err = s.err) ∨
    (∃ rest, s.turns = .reset :: rest ∧ t.state = .idle ∧ t.err = none) ∨
    (s.state ≠ .busy ∧ (∃ rest, s.turns = .host (.write 0 0x00000001#32) :: rest) ∧
      ((t.state = .busy ∧ t.err = none) ∨ (t.state = .fault ∧ t.err.isSome = true))) ∨
    (s.state = .busy ∧ (s.turns = [] ∨ ∃ rest, s.turns = .core :: rest) ∧ t.state = .done ∧ t.err = s.err ∧
      t.i.toNat = t.frameN)

/-- R86: FAULT is left only by an accepted DECODE or by a reset; until then STATUS, I and K keep the fault. -/
def Obligations.FaultIsLeftByDecodeOrReset : Prop :=
  ∀ s t : State, s.state = .fault → step s = .next t →
    sameStatus s t ∨ (∃ rest, s.turns = .reset :: rest) ∨
      (∃ rest, s.turns = .host (.write 0 0x00000001#32) :: rest)

end Status

section BlockSteps

/-- R34: in a legal state that is BUSY, every address of the next block step lies inside its plane, and so, under the
registers, inside both buffers. -/
def Obligations.BlockAddressesAreInBounds : Prop :=
  ∀ s : State, s.Inv → s.state = .busy →
    (∀ a ∈ blockAddrs s.frameW s.i.toNat, a < s.frameN) ∧
    (∀ a ∈ chromaAddrs s.frameN s.k.toNat, s.frameN ≤ a ∧ a ≤ s.frameN + s.frameN / 2 - 1) ∧
    s.frameN + s.frameN / 2 ≤ s.frameLen.toNat ∧ s.frameN = s.outCap.toNat

/-- R54: Advance, without wrap: K grows by 2; I grows by 2, and by W more exactly when I + 2 is a multiple of W. -/
def Obligations.AdvanceMovesToTheNextBlock : Prop :=
  ∀ s t : State, s.Inv → s.state = .busy → blockStep s = .next t →
    t.k.toNat = s.k.toNat + 2 ∧
    ((s.i.toNat + 2) % s.frameW = 0 → t.i.toNat = s.i.toNat + 2 + s.frameW) ∧
    ((s.i.toNat + 2) % s.frameW ≠ 0 → t.i.toNat = s.i.toNat + 2)

/-- R52, R53, R55, R80: a block step of a legal state whose sizes are truthful and whose frame is stable completes: it
writes the four pixels of its block, each CT of its own luma sample and the one shared chroma pair, changes no other
word of PIX, no byte of FRAME, no parameter register, PIXOUT or ERR, advances I and K, and ends the decode exactly when
I has become N. -/
def Obligations.BlockStepWritesItsFourPixels : Prop :=
  ∀ s : State, s.Inv → s.state = .busy → s.truthful → s.frameStable →
    ∃ t, blockStep s = .next t ∧
      (∀ a ∈ blockAddrs s.frameW s.i.toNat,
        pixStored t.pix a = ct (luma (frameStored s.frame a))
          (rebias (frameStored s.frame (s.frameN + s.k.toNat + 1)))
          (rebias (frameStored s.frame (s.frameN + s.k.toNat)))) ∧
      samePixBut (blockAddrs s.frameW s.i.toNat) s t ∧ t.frame = s.frame ∧ sameParameters s t ∧
      t.pixout = s.pixout ∧ t.err = s.err ∧ sameHostSide s t ∧
      t.i.toNat = advanceI s.frameW s.i.toNat ∧ t.k.toNat = s.k.toNat + 2 ∧
      (t.state = .done ↔ t.i.toNat = s.frameN) ∧ (t.state = .busy ↔ t.i.toNat ≠ s.frameN)

/-- R98 and the model's choices beside it. A block step that would write a word outside the buffer really bound to PIX is
refused, as R98 says; that it then writes none of its words is the model's choice (log 15). Where FRAME_LEN overstates
its buffer R98 allows any value or a refusal: that the step still completes, with any value for the bytes beyond, is the
model's choice of the two (log 8). -/
def Obligations.BlockStepStopsOnlyOutsidePix : Prop :=
  ∀ s : State,
    ((∃ a ∈ blockAddrs s.frameW s.i.toNat, s.pix.size ≤ a) → blockStep s = .refused .coreWriteOutsidePix) ∧
    ((∀ a ∈ blockAddrs s.frameW s.i.toNat, a < s.pix.size) →
      ∃ t, blockStep s = .next t ∧ samePixBut (blockAddrs s.frameW s.i.toNat) s t)

/-- R55, R57: the block steps of an accepted DECODE in closed form. The t-th starts at I = 2*br*W + 2*bc and
K = br*W + 2*bc = 2*t with br = t div (W/2), bc = t mod (W/2); after exactly N/4 of them, and never before, STATE is
DONE with I = N and K = N/2. -/
def Obligations.BlockSequenceInClosedForm : Prop :=
  ∀ s : State, s.state ≠ .busy → s.valid → s.frameN ≤ s.pix.size →
    ∃ s₀, exec .decode s = .next s₀ ∧ 0 < s.frameN / 4 ∧
      (∀ t, t < s.frameN / 4 → ∃ u, coreSteps t s₀ = .next u ∧ u.state = .busy ∧
        u.i.toNat = 2 * (t / (s.frameW / 2)) * s.frameW + 2 * (t % (s.frameW / 2)) ∧
        u.k.toNat = t / (s.frameW / 2) * s.frameW + 2 * (t % (s.frameW / 2)) ∧ u.k.toNat = 2 * t) ∧
      ∃ u, coreSteps (s.frameN / 4) s₀ = .next u ∧ u.state = .done ∧ u.i.toNat = s.frameN ∧
        u.k.toNat = s.frameN / 2

/-- R59: the block steps visit the blocks of the nested loop over block rows and block columns, in the loop's order,
with the loop's I and K. -/
def Obligations.BlockStepsAreTheNestedLoop : Prop :=
  ∀ s s₀ : State, s.state ≠ .busy → s.valid → s.frameN ≤ s.pix.size → exec .decode s = .next s₀ →
    (nestedLoop s.frameW s.frameH).length = s.frameN / 4 ∧
      ∀ t, t < s.frameN / 4 → ∃ u, coreSteps t s₀ = .next u ∧
        (nestedLoop s.frameW s.frameH)[t]? = some (u.i.toNat, u.k.toNat)

/-- R39: the footprint of a decode. Over its N/4 blocks the luma addresses, which are the pixel indices, are each of
0 .. N - 1 exactly once, and the chroma addresses each of N .. N + N/2 - 1 exactly once. -/
def Obligations.DecodeTouchesEachCellOnce : Prop :=
  ∀ a b : Nat, 0 < a → 0 < b →
    let w := 2 * a
    let n := 2 * a * (2 * b)
    ((List.range (n / 4)).flatMap fun t => blockAddrs w (blockI w t)).Perm (List.range n) ∧
      ((List.range (n / 4)).flatMap fun t => chromaAddrs n (blockK t)).Perm ((List.range (n / 2)).map (n + ·))

/-- R58: the result of a decode. Malformed parameters give the fault of the first check they fail. If validation
passes, the sizes are truthful and HOST lets the core run, then N/4 steps after the DECODE the core is DONE with I = N,
K = N/2 and ERR NONE; every word of PIX[0 .. N-1] is CT of its own luma byte and of the chroma pair of its 2×2 block; no
other word of PIX and no byte of FRAME has changed. -/
def Obligations.DecodeConvertsTheWholeFrame : Prop :=
  ∀ s : State, s.state ≠ .busy → s.turns = [] →
    (¬ s.legalDims → ∃ t, exec .decode s = .next t ∧ t.state = .fault ∧ t.err = some .invalidDimensions) ∧
    (s.legalDims → ¬ s.frameLongEnough →
      ∃ t, exec .decode s = .next t ∧ t.state = .fault ∧ t.err = some .bufferTooSmall) ∧
    (s.legalDims → s.frameLongEnough → ¬ s.capacityExact →
      ∃ t, exec .decode s = .next t ∧ t.state = .fault ∧ t.err = some .outputSizeMismatch) ∧
    (s.legalDims → s.frameLongEnough → s.capacityExact → s.truthful →
      ∃ t, decodeRun s = .next t ∧ t.state = .done ∧ t.err = none ∧
        t.i.toNat = s.frameN ∧ t.k.toNat = s.frameN / 2 ∧
        (∀ row col, row < s.frameH → col < s.frameW →
          pixStored t.pix (row * s.frameW + col) =
            ct (luma (frameStored s.frame (row * s.frameW + col)))
              (rebias (frameStored s.frame (s.frameN + row / 2 * s.frameW + 2 * (col / 2) + 1)))
              (rebias (frameStored s.frame (s.frameN + row / 2 * s.frameW + 2 * (col / 2))))) ∧
        samePixBut (List.range s.frameN) s t ∧ t.frame = s.frame ∧ sameParameters s t ∧ t.pixout = s.pixout)

/-- R24: the outcome of a DECODE (the final STATUS, I, K and every pixel word written) is a function of WIDTH, HEIGHT,
FRAME_LEN, OUT_CAP and the bytes FRAME[0 .. N + N/2 - 1] alone: two states that agree on these agree on the outcome,
whatever else differs (the previous STATUS, I, K, the operand registers, PIXOUT, PIX, the bytes beyond). The outcome of
an XFORM is a function of OPY, OPU and OPV alone. -/
def Obligations.DecodeDependsOnItsInputsAlone : Prop :=
  (∀ s s' : State, s.state ≠ .busy → s'.state ≠ .busy → s.turns = [] → s'.turns = [] → s.truthful → s'.truthful →
    s.width = s'.width → s.height = s'.height → s.frameLen = s'.frameLen → s.outCap = s'.outCap →
    (∀ a, a < s.frameN + s.frameN / 2 → frameStored s.frame a = frameStored s'.frame a) →
    ∃ t t', decodeRun s = .next t ∧ decodeRun s' = .next t' ∧ sameStatus t t' ∧ t.statusWord = t'.statusWord ∧
      (t.state = .done → ∀ p, p < s.frameN → pixStored t.pix p = pixStored t'.pix p)) ∧
  (∀ s s' : State, s.state ≠ .busy → s'.state ≠ .busy → s.opy = s'.opy → s.opu = s'.opu → s.opv = s'.opv →
    ∃ t t', exec .xform s = .next t ∧ exec .xform s' = .next t' ∧ t.pixout = t'.pixout)

/-- R76: however host reads of registers and turns of CORE interleave, the outcome is that of the turns of CORE alone;
HOST only gets the words it read. -/
def Obligations.HostReadsDoNotDisturbTheCore : Prop :=
  ∀ (s : State) (ts : List Turn), (∀ c ∈ ts, c.isQuiet = true) →
    match coreSteps (coreTurns ts) (s.withTurns []) with
    | .next v => ∃ d, steps ts.length (s.withTurns ts) = .next (v.withHostData d)
    | .fault f => steps ts.length (s.withTurns ts) = .fault f
    | .refused r => steps ts.length (s.withTurns ts) = .refused r

end BlockSteps

section Reset

/-- R93: the state after reset. Every register reads 0, the core is IDLE with no error; an immediate DECODE faults with
InvalidDimensions and an immediate XFORM gives black. Nothing is known of what FRAME and PIX hold. -/
def Obligations.ResetValues : Prop :=
  State.reset.state = .idle ∧ State.reset.err = none ∧ (∀ r, readReg r State.reset = 0#32) ∧
    (∀ a, Memory.read State.reset.frame.cells a = none ∧ Memory.read State.reset.pix.cells a = none) ∧
    (∃ t, exec .decode State.reset = .next t ∧ t.statusWord = 0x00000007#32) ∧
    (∃ t, exec .xform State.reset = .next t ∧ t.pixout = 0xFF000000#32)

/-- R92: a reset, in any state, gives every register its reset value and touches no byte of FRAME. Outside BUSY it leaves
PIX as it is; where it interrupts a decode, each word the decode was to write holds its old or its final value, and
every other word is as it was. That any mixture of old and final words may stand is U14's treatment, which the model
takes (log 12). -/
def Obligations.ResetInAnyState : Prop :=
  ∀ (s : State) (rest : List Turn), s.memoriesWf → s.turns = .reset :: rest →
    ∃ t, step s = .next t ∧ t.turns = rest ∧ sameParameters State.reset t ∧ sameStatus State.reset t ∧
      t.pixout = 0x00000000#32 ∧ t.frame = s.frame ∧ t.pix.size = s.pix.size ∧ t.pix.tag = s.pix.tag ∧
      (s.state ≠ .busy → t.pix = s.pix) ∧
      (s.state = .busy → ∀ p,
        (p < s.frameN → p < s.pix.size →
          pixStored t.pix p = s.finalPixel p ∨
            pixStored t.pix p = (Memory.read s.pixOld p).getD (Config.unwrittenPixel s.pix.tag p)) ∧
        (s.frameN ≤ p ∨ s.pix.size ≤ p → pixStored t.pix p = pixStored s.pix p))

/-- The legal states hold at reset. -/
def Obligations.ResetStateIsLegal : Prop := State.reset.Inv

/-- R12, R17, R18, R22, R24 and the table of 10_state.md section 4, with the canonical form of the memories: every step
from every legal state leads to a legal state, whatever HOST does. -/
def Obligations.EveryStepKeepsTheStateLegal : Prop :=
  ∀ s t : State, s.Inv → step s = .next t → t.Inv

end Reset

section Memory

/-- R26, R36: a byte HOST puts into FRAME outside a decode is the byte that is read there, by HOST and by CORE; every
other byte is as it was, and no register changes. -/
def Obligations.FrameHoldsWhatHostPut : Prop :=
  ∀ (s : State) (a : Nat) (b : Byte) (rest : List Turn), s.state ≠ .busy → a < s.frame.size →
    s.turns = .host (.putByte a b) :: rest →
      ∃ t, step s = .next t ∧ frameStored t.frame a = b ∧ (∀ c, c ≠ a → frameStored t.frame c = frameStored s.frame c) ∧
        t.frame.size = s.frame.size ∧ t.pix = s.pix ∧ sameStatus s t ∧ sameParameters s t ∧ t.pixout = s.pixout ∧
        t.stale = s.stale ∧ hostGetByte a t = .next { t with hostData := b.setWidth 32 }

/-- A word HOST puts into PIX outside a decode, its own buffer then (R27, R36), is the word that stands there, and the word
HOST reads there where the index is one it may read; every other word is as it was, and no register and no byte of FRAME
changes. That the word put reads back is the model's choice (log 5): R93 calls a word no completed decode has written
unspecified, and names no write of HOST's. -/
def Obligations.PixHoldsWhatHostPut : Prop :=
  ∀ (s : State) (p : Nat) (v : Pixel) (rest : List Turn), s.state ≠ .busy → p < s.pix.size →
    s.turns = .host (.putPixel p v) :: rest →
      ∃ t, step s = .next t ∧ pixStored t.pix p = v ∧ samePixBut [p] s t ∧ t.frame = s.frame ∧ sameStatus s t ∧
        sameParameters s t ∧ t.pixout = s.pixout ∧ t.pixFrame = s.pixFrame ∧
        (p < s.pixEnd → hostGetPixel p t = .next { t with hostData := v })

/-- R96: a byte of FRAME that HOST changes while BUSY is read by the decode as its old or its new value; every other byte
is read as before. R96 allows that or a refusal: to go on is the model's choice of the two (log 10). -/
def Obligations.ChangedByteIsReadOldOrNew : Prop :=
  ∀ (s : State) (a : Nat) (b : Byte) (rest : List Turn), s.state = .busy → a < s.frame.size →
    Memory.read s.stale a = none → s.turns = .host (.putByte a b) :: rest →
      ∃ t, step s = .next t ∧ (t.frameByte a = s.frameByte a ∨ t.frameByte a = b) ∧
        ∀ c, c ≠ a → t.frameByte c = s.frameByte c

/-- R37, R97, R100: a host read of PIX. At or beyond the N of the decode whose result PIX holds, and beyond the buffer, it
is refused. Outside a decode it returns the word that stands there; during one, a word the decode writes is read as its
old or its final value. It changes nothing but what HOST holds. That an early read is answered and not refused, and that
an index of a buffer no decode has been accepted into is bounded by the buffer alone, are the model's choices (logs 11
and 21). -/
def Obligations.HostReadsOfPix : Prop :=
  ∀ (s : State) (p : Nat) (rest : List Turn), s.turns = .host (.getPixel p) :: rest →
    (∀ n, s.pixFrame = some n → n ≤ p → step s = .refused .hostOutsidePix) ∧
    (s.pix.size ≤ p → step s = .refused .hostOutsidePix) ∧
    (p < s.pixEnd → s.state ≠ .busy →
      step s = .next { s with turns := rest, hostData := pixStored s.pix p }) ∧
    (p < s.pixEnd → s.state = .busy → ∃ t, step s = .next t ∧
      t = { s with turns := rest, hostData := t.hostData, draws := s.draws + 1 } ∧
      (p < s.frameN → t.hostData = s.finalPixel p ∨
        t.hostData = (Memory.read s.pixOld p).getD (Config.unwrittenPixel s.pix.tag p)) ∧
      (s.frameN ≤ p → t.hostData = pixStored s.pix p))

/-- R75 step 5a, R100, U13: after a decode HOST reads each of the N words the decode wrote, and a read at `p >= N` is
refused: however large the buffer bound to PIX is, and whatever WIDTH and HEIGHT have become since, N being that of the
decode. -/
def Obligations.ReadsStayInsideTheDecodedFrame : Prop :=
  ∀ s : State, s.state ≠ .busy → s.turns = [] → s.valid → s.frameN ≤ s.pix.size →
    ∃ t, decodeRun s = .next t ∧ t.state = .done ∧ t.pixFrame = some s.frameN ∧
      (∀ p, p < s.frameN → hostGetPixel p t = .next { t with hostData := pixStored t.pix p }) ∧
      ∀ p w h, s.frameN ≤ p → hostGetPixel p { t with width := w, height := h } = .refused .hostOutsidePix

/-- R75 step 1, R94 (1) and (2), log 7: binding a buffer outside a decode. The space has the buffer's size and holds what
HOST has placed in it, the latest entry for an index counting; the other space, every register and what HOST holds are
as they were, and a newly bound PIX holds the result of no decode. That binding is a turn of HOST is the model's choice. -/
def Obligations.BindingBringsWhatHostPlaced : Prop :=
  (∀ (s : State) (n : Nat) (known : List (Nat × Byte)) (rest : List Turn), s.state ≠ .busy →
    s.turns = .host (.bindFrame n known) :: rest →
      ∃ t, step s = .next t ∧ t.frame.size = n ∧
        (∀ pre a v post, known = pre ++ (a, v) :: post → (∀ c ∈ post, c.1 ≠ a) → a < n → frameStored t.frame a = v) ∧
        t.pix = s.pix ∧ t.pixFrame = s.pixFrame ∧ sameStatus s t ∧ sameParameters s t ∧ t.pixout = s.pixout ∧
        t.hostData = s.hostData ∧ t.turns = rest) ∧
  (∀ (s : State) (n : Nat) (known : List (Nat × Pixel)) (rest : List Turn), s.state ≠ .busy →
    s.turns = .host (.bindPix n known) :: rest →
      ∃ t, step s = .next t ∧ t.pix.size = n ∧
        (∀ pre p v post, known = pre ++ (p, v) :: post → (∀ c ∈ post, c.1 ≠ p) → p < n → pixStored t.pix p = v) ∧
        t.frame = s.frame ∧ t.pixFrame = none ∧ sameStatus s t ∧ sameParameters s t ∧ t.pixout = s.pixout ∧
        t.hostData = s.hostData ∧ t.turns = rest)

/-- R94: the order of HOST's preparations is free. Binding a buffer and then filling it leaves the very state that binding
the filled buffer leaves; binding and a register write may be exchanged, filling and a register write too, and so may
two writes of different registers. CMD is not among them: a command acts when it is written. -/
def Obligations.PreparationsComeInAnyOrder : Prop :=
  ∀ s : State, s.state ≠ .busy →
    (∀ (n : Nat) (known : List (Nat × Byte)) (rest : List Turn), (∀ c ∈ known, c.1 < n) →
      steps (known.length + 1)
          (s.withTurns (.host (.bindFrame n []) :: (known.map fun c => Turn.host (.putByte c.1 c.2)) ++ rest)) =
        step (s.withTurns (.host (.bindFrame n known) :: rest))) ∧
    (∀ (n : Nat) (known : List (Nat × Pixel)) (rest : List Turn), (∀ c ∈ known, c.1 < n) →
      steps (known.length + 1)
          (s.withTurns (.host (.bindPix n []) :: (known.map fun c => Turn.host (.putPixel c.1 c.2)) ++ rest)) =
        step (s.withTurns (.host (.bindPix n known) :: rest))) ∧
    (∀ (op : HostOp) (r : Nat) (d : HostWord) (rest : List Turn), r ≠ 0 →
      ((∃ n known, op = .bindFrame n known) ∨ (∃ n known, op = .bindPix n known) ∨ (∃ a b, op = .putByte a b) ∨
        (∃ r' d', op = .write r' d' ∧ r' ≠ 0 ∧ r' ≠ r)) →
      steps 2 (s.withTurns (.host op :: .host (.write r d) :: rest)) =
        steps 2 (s.withTurns (.host (.write r d) :: .host op :: rest)))

/-- Where a turn of HOST stops, each stop the model's treatment of a breach (logs 7, 9, 11): R26 (an index of FRAME that does not exist), R97 (a write of PIX before DONE), R100 (an
index of PIX that does not exist), R94 (binding a buffer during a decode, log 7). Reads of PIX are HostReadsOfPix's. -/
def Obligations.WhereHostTurnsStop : Prop :=
  ∀ (s : State) (rest : List Turn),
    (∀ a b, s.turns = .host (.putByte a b) :: rest → s.frame.size ≤ a → step s = .fault .noSuchFrameByte) ∧
    (∀ a, s.turns = .host (.getByte a) :: rest → s.frame.size ≤ a → step s = .fault .noSuchFrameByte) ∧
    (∀ p v, s.turns = .host (.putPixel p v) :: rest → s.state = .busy → step s = .refused .hostPixWriteWhileBusy) ∧
    (∀ p v, s.turns = .host (.putPixel p v) :: rest → s.state ≠ .busy → s.pix.size ≤ p →
      step s = .refused .hostOutsidePix) ∧
    (∀ n known, s.turns = .host (.bindFrame n known) :: rest → s.state = .busy →
      step s = .refused .bindWhileBusy) ∧
    (∀ n known, s.turns = .host (.bindPix n known) :: rest → s.state = .busy →
      step s = .refused .bindWhileBusy)

/-- R53, R72, R73, R80, R92: in a legal state whose sizes are truthful, no turn of CORE, no reset, no HostWrite (and so no
command) and no HostRead stops the machine. What remains are host accesses to the buffers. -/
def Obligations.OnlyHostAccessesStop : Prop :=
  ∀ s : State, s.Inv → (s.state = .busy → s.truthful) →
    (s.turns = [] ∨ (∃ rest, s.turns = .core :: rest) ∨
      (∃ rest, s.turns = .reset :: rest) ∨
      (∃ r d rest, s.turns = .host (.write r d) :: rest) ∨ (∃ r rest, s.turns = .host (.read r) :: rest)) →
    ∃ t, step s = .next t

end Memory
end

