-- ==== Sys2Proof/Laws/ColorTransform.lean ====
section
/-! SUPPORT. What the arithmetic of the Color Transform does. -/

namespace Sys2Proof.Machine

/-- `tq` on a dividend that is not negative is floor division. -/
theorem tq_of_nonneg {n : Int} (h : 0 ≤ n) (d : Nat) : tq n d = n / (d : Int) := by
  obtain ⟨m, rfl⟩ := Int.eq_ofNat_of_zero_le h
  simp [tq]

/-- `tq` is odd (R6). -/
theorem tq_neg (n : Int) (d : Nat) : tq (-n) d = -tq n d := by
  unfold tq
  rw [Int.natAbs_neg]
  rcases lt_trichotomy n 0 with h | h | h
  · rw [if_pos (by omega), if_neg (by omega), neg_neg]
  · subst h; simp
  · rw [if_neg (by omega), if_pos (by omega)]

/-- `tq` on a negative dividend is the negated quotient of the magnitude. -/
theorem tq_of_neg {n : Int} (h : n < 0) (d : Nat) : tq n d = -(-n / (d : Int)) := by
  rw [← tq_of_nonneg (by omega : 0 ≤ -n) d, tq_neg, neg_neg]

/-- `tq` is monotonic in its dividend. -/
theorem tq_mono {m n : Int} (h : m ≤ n) {d : Nat} (hd : 0 < d) : tq m d ≤ tq n d := by
  have hd' : (0 : Int) < d := by exact_mod_cast hd
  rcases lt_or_ge m 0 with hm | hm
  · rcases lt_or_ge n 0 with hn | hn
    · rw [tq_of_neg hm, tq_of_neg hn]
      exact neg_le_neg (Int.ediv_le_ediv hd' (by omega))
    · rw [tq_of_neg hm, tq_of_nonneg hn]
      have h₁ := Int.ediv_nonneg (by omega : 0 ≤ -m) hd'.le
      have h₂ := Int.ediv_nonneg hn hd'.le
      omega
  · rw [tq_of_nonneg hm, tq_of_nonneg (hm.trans h)]
    exact Int.ediv_le_ediv hd' h

theorem clamp8_le (x : Int) : clamp8 x ≤ 255 := by
  unfold clamp8; split
  · omega
  · split <;> omega

theorem clamp8_of_mem {x : Int} (h₀ : 0 ≤ x) (h₁ : x ≤ 255) : clamp8 x = x.toNat := by
  unfold clamp8
  rw [if_neg (by omega), if_neg (by omega)]

/-- `clamp8` is monotonic. -/
theorem clamp8_mono {x y : Int} (h : x ≤ y) : clamp8 x ≤ clamp8 y := by
  unfold clamp8; split
  · omega
  · split
    · rw [if_neg (by omega), if_pos (by omega)]
    · rw [if_neg (by omega)]; split <;> omega

/-- A packed word as a number (R42, R64): the fields do not overlap, so that the OR is a sum. -/
theorem pack_toNat {r g b : Nat} (hr : r ≤ 255) (hg : g ≤ 255) (hb : b ≤ 255) :
    (pack r g b).toNat = 0xFF000000 + r * 2 ^ 16 + g * 2 ^ 8 + b := by
  have h : (pack r g b).toNat = 255 <<< 24 ||| r <<< 16 ||| g <<< 8 ||| b := by
    have hr' : r <<< 16 < 4294967296 := by rw [Nat.shiftLeft_eq]; omega
    have hg' : g <<< 8 < 4294967296 := by rw [Nat.shiftLeft_eq]; omega
    simp [pack, Config.chip, BitVec.toNat_or, BitVec.toNat_shiftLeft, Nat.mod_eq_of_lt hr', Nat.mod_eq_of_lt hg',
      Nat.mod_eq_of_lt (by omega : r < 4294967296), Nat.mod_eq_of_lt (by omega : g < 4294967296),
      Nat.mod_eq_of_lt (by omega : b < 4294967296)]
  have e₁ : 255 <<< 24 ||| r <<< 16 = (255 * 2 ^ 8 + r) <<< 16 := by
    rw [← Nat.shiftLeft_add_eq_or_of_lt (by rw [Nat.shiftLeft_eq]; omega)]
    simp only [Nat.shiftLeft_eq]; omega
  have e₂ : (255 * 2 ^ 8 + r) <<< 16 ||| g <<< 8 = (255 * 2 ^ 16 + r * 2 ^ 8 + g) <<< 8 := by
    rw [← Nat.shiftLeft_add_eq_or_of_lt (by rw [Nat.shiftLeft_eq]; omega)]
    simp only [Nat.shiftLeft_eq]; omega
  rw [h, e₁, e₂, ← Nat.shiftLeft_add_eq_or_of_lt (by omega)]
  simp only [Nat.shiftLeft_eq]; omega

/-- A pixel of the Color Transform as a number (R60, R63, R64). -/
theorem ct_toNat (y u v : Int) :
    (ct y u v).toNat = 0xFF000000 + clamp8 (channelSums y (chromaTerms u v)).r * 2 ^ 16 +
      clamp8 (channelSums y (chromaTerms u v)).g * 2 ^ 8 + clamp8 (channelSums y (chromaTerms u v)).b :=
  pack_toNat (clamp8_le _) (clamp8_le _) (clamp8_le _)

/-- The alpha byte of every pixel is 0xFF (R42). -/
theorem ct_alpha (y u v : Int) : (ct y u v).extractLsb' 24 8 = 0xFF#8 := by
  apply BitVec.eq_of_toNat_eq
  rw [BitVec.extractLsb'_toNat, ct_toNat, Nat.shiftRight_eq_div_pow]
  have := clamp8_le (channelSums y (chromaTerms u v)).r
  have := clamp8_le (channelSums y (chromaTerms u v)).g
  have := clamp8_le (channelSums y (chromaTerms u v)).b
  show _ = 255
  omega

end Sys2Proof.Machine
end

