-- ==== Sys2Proof/Laws/Memory.lean ====
section
/-! SUPPORT. What the memory operations do: a read after a write, and that every operation keeps the canonical form. -/

namespace Sys2Proof.Machine

variable {w : Nat}

@[simp] theorem Memory.read_nil (a : Nat) : Memory.read ([] : Memory w) a = none := rfl

theorem Memory.read_cons (b a : Nat) (v : BitVec w) (m : Memory w) :
    Memory.read ((b, v) :: m) a = if a = b then some v else Memory.read m a := rfl

/-- What is read is listed. -/
theorem Memory.mem_of_read {m : Memory w} {a : Nat} {v : BitVec w} (h : Memory.read m a = some v) : (a, v) ∈ m := by
  induction m with
  | nil => simp at h
  | cons c m ih =>
    obtain ⟨b, x⟩ := c
    rw [Memory.read_cons] at h
    split at h
    · simp_all
    · exact List.mem_cons_of_mem _ (ih h)

/-- An address below every listed one is not listed. -/
theorem Memory.read_eq_none_of_lt {m : Memory w} {a : Nat} (h : ∀ c ∈ m, a < c.1) : Memory.read m a = none := by
  cases hr : Memory.read m a with
  | none => rfl
  | some v => exact absurd (h _ (Memory.mem_of_read hr)) (by simp)

/-- A canonical memory lists its head's address once, and first. -/
theorem Memory.wf_cons {b : Nat} {x : BitVec w} {m : Memory w} :
    Memory.wf ((b, x) :: m) ↔ (∀ c ∈ m, b < c.1) ∧ Memory.wf m := by
  simp [Memory.wf, List.pairwise_cons]

/-- After a write, the written address reads as written and every other as before. -/
@[simp] theorem Memory.read_write (m : Memory w) (a c : Nat) (v : BitVec w) :
    Memory.read (Memory.write m a v) c = if c = a then some v else Memory.read m c := by
  unfold Memory.write
  induction m with
  | nil => simp [Memory.put, Memory.read_cons]
  | cons d m ih =>
    obtain ⟨b, x⟩ := d
    by_cases h₁ : a < b
    · simp [Memory.put, h₁, Memory.read_cons]
    · by_cases h₂ : a = b
      · subst h₂
        by_cases h₃ : c = a <;> simp [Memory.put, Memory.read_cons, h₃]
      · simp only [Memory.put, h₁, h₂, if_false, Memory.read_cons, ih]
        by_cases h₃ : c = a <;> by_cases h₄ : c = b <;> simp_all

/-- In canonical form the same holds of a put, which may also make an address unknown. -/
theorem Memory.read_put {m : Memory w} (hm : Memory.wf m) (a c : Nat) (o : Option (BitVec w)) :
    Memory.read (Memory.put m a o) c = if c = a then o else Memory.read m c := by
  cases o with
  | some v => exact Memory.read_write m a c v
  | none =>
    induction m with
    | nil => simp [Memory.put]
    | cons d m ih =>
      obtain ⟨b, x⟩ := d
      obtain ⟨hb, hm⟩ := Memory.wf_cons.1 hm
      by_cases h₁ : a < b
      · have hn : Memory.read ((b, x) :: m) a = none :=
          Memory.read_eq_none_of_lt (by intro c hc; rcases List.mem_cons.1 hc with rfl | h
                                        · exact h₁
                                        · exact h₁.trans (hb c h))
        by_cases h₃ : c = a
        · subst h₃; simp [Memory.put, h₁, hn]
        · simp [Memory.put, h₁, h₃]
      · by_cases h₂ : a = b
        · subst h₂
          by_cases h₃ : c = a
          · subst h₃; simp [Memory.put, Memory.read_eq_none_of_lt hb]
          · simp [Memory.put, Memory.read_cons, h₃]
        · simp only [Memory.put, h₁, h₂, if_false, Memory.read_cons, ih hm]
          by_cases h₃ : c = a <;> by_cases h₄ : c = b <;> simp_all

/-- A put lists nothing but what was listed and the address it sets. -/
theorem Memory.mem_put {m : Memory w} {a : Nat} {o : Option (BitVec w)} {c : Nat × BitVec w}
    (h : c ∈ Memory.put m a o) : c ∈ m ∨ c.1 = a := by
  induction m with
  | nil => cases o <;> simp_all [Memory.put]
  | cons d m ih =>
    obtain ⟨b, x⟩ := d
    unfold Memory.put at h
    split at h
    · cases o <;> simp_all
      rcases h with rfl | h | h <;> simp_all
    · split at h
      · cases o <;> simp_all
        rcases h with rfl | h <;> simp_all
      · rcases List.mem_cons.1 h with rfl | h
        · simp
        · rcases ih h with h | h <;> simp_all

/-- A put keeps the canonical form. -/
theorem Memory.wf_put {m : Memory w} (hm : Memory.wf m) (a : Nat) (o : Option (BitVec w)) :
    Memory.wf (Memory.put m a o) := by
  induction m with
  | nil => cases o <;> simp [Memory.put, Memory.wf]
  | cons d m ih =>
    obtain ⟨b, x⟩ := d
    have hm' := Memory.wf_cons.1 hm
    unfold Memory.put
    split
    · rename_i h
      cases o with
      | none => exact hm
      | some v =>
        refine Memory.wf_cons.2 ⟨?_, hm⟩
        intro c hc
        rcases List.mem_cons.1 hc with rfl | hc
        · exact h
        · exact h.trans (hm'.1 c hc)
    · split
      · rename_i _ h
        subst h
        cases o with
        | none => exact hm'.2
        | some v => exact Memory.wf_cons.2 hm'
      · refine Memory.wf_cons.2 ⟨?_, ih hm'.2⟩
        intro c hc
        rcases Memory.mem_put hc with hc | hc
        · exact hm'.1 c hc
        · omega

/-- A write keeps the canonical form. -/
theorem Memory.wf_write {m : Memory w} (hm : Memory.wf m) (a : Nat) (v : BitVec w) : Memory.wf (Memory.write m a v) :=
  Memory.wf_put hm a (some v)

@[simp] theorem Memory.writeAll_nil (m : Memory w) : Memory.writeAll m [] = m := rfl

@[simp] theorem Memory.writeAll_cons (m : Memory w) (x : Nat × BitVec w) (ws : List (Nat × BitVec w)) :
    Memory.writeAll m (x :: ws) = Memory.writeAll (Memory.write m x.1 x.2) ws := rfl

/-- Several writes keep the canonical form. -/
theorem Memory.wf_writeAll {m : Memory w} (hm : Memory.wf m) (ws : List (Nat × BitVec w)) :
    Memory.wf (Memory.writeAll m ws) := by
  induction ws generalizing m with
  | nil => exact hm
  | cons x ws ih => exact ih (Memory.wf_write hm x.1 x.2)

/-- An address none of the writes names reads as before. -/
theorem Memory.read_writeAll_of_not_mem (m : Memory w) (ws : List (Nat × BitVec w)) (c : Nat)
    (h : c ∉ ws.map Prod.fst) : Memory.read (Memory.writeAll m ws) c = Memory.read m c := by
  induction ws generalizing m with
  | nil => rfl
  | cons x ws ih =>
    simp only [List.map_cons, List.mem_cons, not_or] at h
    simp [ih _ h.2, h.1]

/-- Several writes, one after others. -/
theorem Memory.writeAll_append (m : Memory w) (xs ys : List (Nat × BitVec w)) :
    Memory.writeAll m (xs ++ ys) = Memory.writeAll (Memory.writeAll m xs) ys := List.foldl_append

/-- Of several writes to one address the last counts. -/
theorem Memory.read_writeAll_last (m : Memory w) (pre post : List (Nat × BitVec w)) (a : Nat) (v : BitVec w)
    (h : a ∉ post.map Prod.fst) : Memory.read (Memory.writeAll m (pre ++ (a, v) :: post)) a = some v := by
  rw [Memory.writeAll_append, Memory.writeAll_cons, Memory.read_writeAll_of_not_mem _ _ _ h, Memory.read_write, if_pos rfl]

/-- Several writes list nothing but what was listed and the addresses written. -/
theorem Memory.mem_writeAll {m : Memory w} {ws : List (Nat × BitVec w)} {c : Nat × BitVec w}
    (h : c ∈ Memory.writeAll m ws) : c ∈ m ∨ c.1 ∈ ws.map Prod.fst := by
  induction ws generalizing m with
  | nil => exact .inl h
  | cons x ws ih =>
    rcases ih h with h | h
    · rcases Memory.mem_put h with h | h
      · exact .inl h
      · exact .inr (by simp [h])
    · exact .inr (by simp_all)

theorem Memory.putRange_succ (m : Memory w) (n : Nat) (f : Nat → Option (BitVec w)) :
    Memory.putRange m (n + 1) f = Memory.put (Memory.putRange m n f) n (f n) := by
  simp [Memory.putRange, List.range_succ]

/-- Setting a range keeps the canonical form. -/
theorem Memory.wf_putRange {m : Memory w} (hm : Memory.wf m) (n : Nat) (f : Nat → Option (BitVec w)) :
    Memory.wf (Memory.putRange m n f) := by
  induction n with
  | zero => simpa [Memory.putRange] using hm
  | succ n ih => rw [Memory.putRange_succ]; exact Memory.wf_put ih n (f n)

/-- After setting a range, an address below its end reads as set and every other as before. -/
theorem Memory.read_putRange {m : Memory w} (hm : Memory.wf m) (n : Nat) (f : Nat → Option (BitVec w)) (c : Nat) :
    Memory.read (Memory.putRange m n f) c = if c < n then f c else Memory.read m c := by
  induction n with
  | zero => simp [Memory.putRange]
  | succ n ih =>
    rw [Memory.putRange_succ, Memory.read_put (Memory.wf_putRange hm n f), ih]
    by_cases h : c = n
    · simp [h]
    · have : c < n + 1 ↔ c < n := by omega
      simp [h, this]

/-- Setting a range lists nothing but what was listed and addresses of the range. -/
theorem Memory.mem_putRange {m : Memory w} {n : Nat} {f : Nat → Option (BitVec w)} {c : Nat × BitVec w}
    (h : c ∈ Memory.putRange m n f) : c ∈ m ∨ c.1 < n := by
  induction n with
  | zero => exact .inl (by simpa [Memory.putRange] using h)
  | succ n ih =>
    rw [Memory.putRange_succ] at h
    rcases Memory.mem_put h with h | h
    · rcases ih h with h | h
      · exact .inl h
      · exact .inr (by omega)
    · exact .inr (by omega)

/-- Storing a cell that exists keeps a buffer's canonical form. -/
theorem Buffer.wf_store {b : Buffer w} (hb : b.wf) {a : Nat} (ha : a < b.size) (v : BitVec w) : (b.store a v).wf := by
  refine ⟨Memory.wf_write hb.1 a v, fun c hc => ?_⟩
  rcases Memory.mem_put hc with hc | hc
  · exact hb.2 c hc
  · exact hc ▸ ha

/-- A buffer just bound is in canonical form. -/
theorem boundBuffer_wf (n tag : Nat) (known : List (Nat × BitVec w)) : (boundBuffer w n tag known).wf := by
  refine ⟨Memory.wf_writeAll (by simp [Memory.wf]) _, fun c hc => ?_⟩
  rcases Memory.mem_writeAll hc with hc | hc
  · cases hc
  · obtain ⟨x, hx, hxc⟩ := List.mem_map.1 hc
    rw [← hxc]
    exact of_decide_eq_true (List.mem_filter.1 hx).2

/-- What the host has placed in a buffer before binding it stands there afterwards (R94). -/
theorem read_boundBuffer {n tag a : Nat} {v : BitVec w} {pre post : List (Nat × BitVec w)} (ha : a < n)
    (hp : ∀ c ∈ post, c.1 ≠ a) : Memory.read (boundBuffer w n tag (pre ++ (a, v) :: post)).cells a = some v := by
  have hf : (pre ++ (a, v) :: post).filter (fun c => decide (c.1 < n)) =
      pre.filter (fun c => decide (c.1 < n)) ++ (a, v) :: post.filter (fun c => decide (c.1 < n)) := by
    simp [ha]
  unfold boundBuffer
  rw [hf]
  refine Memory.read_writeAll_last _ _ _ _ _ fun hm => ?_
  obtain ⟨c, hc, rfl⟩ := List.mem_map.1 hm
  exact hp c (List.mem_filter.1 hc).1 rfl

@[simp] theorem Buffer.store_size (b : Buffer w) (a : Nat) (v : BitVec w) : (b.store a v).size = b.size := rfl

@[simp] theorem Buffer.store_tag (b : Buffer w) (a : Nat) (v : BitVec w) : (b.store a v).tag = b.tag := rfl

/-- After HOST stores a byte, it reads as stored and every other byte of the buffer as before. -/
@[simp] theorem frameStored_store (b : Buffer 8) (a c : Nat) (v : Byte) :
    frameStored (b.store a v) c = if c = a then v else frameStored b c := by
  unfold frameStored Buffer.store
  by_cases h : c = a <;> simp [h]

/-- After a word of PIX is stored, it reads as stored and every other word as before. -/
@[simp] theorem pixStored_store (b : Buffer 32) (p c : Nat) (v : Pixel) :
    pixStored (b.store p v) c = if c = p then v else pixStored b c := by
  unfold pixStored Buffer.store
  by_cases h : c = p <;> simp [h]

/-- Right after reset both spaces are in canonical form: nothing is listed (R93). -/
theorem State.reset_spaces_wf : State.reset.frame.wf ∧ State.reset.pix.wf := by
  simp [State.reset, freshBuffer, Buffer.wf, Memory.wf]

end Sys2Proof.Machine
end

