-- ==== Sys2Proof/Laws/State.lean ====
section
/-! SUPPORT. One lemma per field per named update of State, so that no proof unfolds a record update. -/

namespace Sys2Proof.Machine


@[simp] theorem State.withTurns_state (s : State) (ts : List Turn) : (s.withTurns ts).state = s.state := rfl
@[simp] theorem State.withTurns_err (s : State) (ts : List Turn) : (s.withTurns ts).err = s.err := rfl
@[simp] theorem State.withTurns_width (s : State) (ts : List Turn) : (s.withTurns ts).width = s.width := rfl
@[simp] theorem State.withTurns_height (s : State) (ts : List Turn) : (s.withTurns ts).height = s.height := rfl
@[simp] theorem State.withTurns_frameLen (s : State) (ts : List Turn) : (s.withTurns ts).frameLen = s.frameLen := rfl
@[simp] theorem State.withTurns_outCap (s : State) (ts : List Turn) : (s.withTurns ts).outCap = s.outCap := rfl
@[simp] theorem State.withTurns_i (s : State) (ts : List Turn) : (s.withTurns ts).i = s.i := rfl
@[simp] theorem State.withTurns_k (s : State) (ts : List Turn) : (s.withTurns ts).k = s.k := rfl
@[simp] theorem State.withTurns_opy (s : State) (ts : List Turn) : (s.withTurns ts).opy = s.opy := rfl
@[simp] theorem State.withTurns_opu (s : State) (ts : List Turn) : (s.withTurns ts).opu = s.opu := rfl
@[simp] theorem State.withTurns_opv (s : State) (ts : List Turn) : (s.withTurns ts).opv = s.opv := rfl
@[simp] theorem State.withTurns_pixout (s : State) (ts : List Turn) : (s.withTurns ts).pixout = s.pixout := rfl
@[simp] theorem State.withTurns_frame (s : State) (ts : List Turn) : (s.withTurns ts).frame = s.frame := rfl
@[simp] theorem State.withTurns_pix (s : State) (ts : List Turn) : (s.withTurns ts).pix = s.pix := rfl
@[simp] theorem State.withTurns_turns (s : State) (ts : List Turn) : (s.withTurns ts).turns = ts := rfl
@[simp] theorem State.withTurns_hostData (s : State) (ts : List Turn) : (s.withTurns ts).hostData = s.hostData := rfl
@[simp] theorem State.withTurns_stale (s : State) (ts : List Turn) : (s.withTurns ts).stale = s.stale := rfl
@[simp] theorem State.withTurns_pixOld (s : State) (ts : List Turn) : (s.withTurns ts).pixOld = s.pixOld := rfl
@[simp] theorem State.withTurns_pixFrame (s : State) (ts : List Turn) : (s.withTurns ts).pixFrame = s.pixFrame := rfl
@[simp] theorem State.withTurns_draws (s : State) (ts : List Turn) : (s.withTurns ts).draws = s.draws := rfl
@[simp] theorem State.withTurns_dimW (s : State) (ts : List Turn) : (s.withTurns ts).dimW = s.dimW := rfl
@[simp] theorem State.withTurns_dimH (s : State) (ts : List Turn) : (s.withTurns ts).dimH = s.dimH := rfl
@[simp] theorem State.withTurns_frameW (s : State) (ts : List Turn) : (s.withTurns ts).frameW = s.frameW := rfl
@[simp] theorem State.withTurns_frameH (s : State) (ts : List Turn) : (s.withTurns ts).frameH = s.frameH := rfl
@[simp] theorem State.withTurns_frameN (s : State) (ts : List Turn) : (s.withTurns ts).frameN = s.frameN := rfl
@[simp] theorem State.withTurns_valid (s : State) (ts : List Turn) : validate (s.withTurns ts) = validate s := rfl

@[simp] theorem State.withHostData_state (s : State) (d : HostWord) : (s.withHostData d).state = s.state := rfl
@[simp] theorem State.withHostData_err (s : State) (d : HostWord) : (s.withHostData d).err = s.err := rfl
@[simp] theorem State.withHostData_width (s : State) (d : HostWord) : (s.withHostData d).width = s.width := rfl
@[simp] theorem State.withHostData_height (s : State) (d : HostWord) : (s.withHostData d).height = s.height := rfl
@[simp] theorem State.withHostData_frameLen (s : State) (d : HostWord) : (s.withHostData d).frameLen = s.frameLen := rfl
@[simp] theorem State.withHostData_outCap (s : State) (d : HostWord) : (s.withHostData d).outCap = s.outCap := rfl
@[simp] theorem State.withHostData_i (s : State) (d : HostWord) : (s.withHostData d).i = s.i := rfl
@[simp] theorem State.withHostData_k (s : State) (d : HostWord) : (s.withHostData d).k = s.k := rfl
@[simp] theorem State.withHostData_opy (s : State) (d : HostWord) : (s.withHostData d).opy = s.opy := rfl
@[simp] theorem State.withHostData_opu (s : State) (d : HostWord) : (s.withHostData d).opu = s.opu := rfl
@[simp] theorem State.withHostData_opv (s : State) (d : HostWord) : (s.withHostData d).opv = s.opv := rfl
@[simp] theorem State.withHostData_pixout (s : State) (d : HostWord) : (s.withHostData d).pixout = s.pixout := rfl
@[simp] theorem State.withHostData_frame (s : State) (d : HostWord) : (s.withHostData d).frame = s.frame := rfl
@[simp] theorem State.withHostData_pix (s : State) (d : HostWord) : (s.withHostData d).pix = s.pix := rfl
@[simp] theorem State.withHostData_turns (s : State) (d : HostWord) : (s.withHostData d).turns = s.turns := rfl
@[simp] theorem State.withHostData_hostData (s : State) (d : HostWord) : (s.withHostData d).hostData = d := rfl
@[simp] theorem State.withHostData_stale (s : State) (d : HostWord) : (s.withHostData d).stale = s.stale := rfl
@[simp] theorem State.withHostData_pixOld (s : State) (d : HostWord) : (s.withHostData d).pixOld = s.pixOld := rfl
@[simp] theorem State.withHostData_pixFrame (s : State) (d : HostWord) : (s.withHostData d).pixFrame = s.pixFrame := rfl
@[simp] theorem State.withHostData_draws (s : State) (d : HostWord) : (s.withHostData d).draws = s.draws := rfl
@[simp] theorem State.withHostData_dimW (s : State) (d : HostWord) : (s.withHostData d).dimW = s.dimW := rfl
@[simp] theorem State.withHostData_dimH (s : State) (d : HostWord) : (s.withHostData d).dimH = s.dimH := rfl
@[simp] theorem State.withHostData_frameW (s : State) (d : HostWord) : (s.withHostData d).frameW = s.frameW := rfl
@[simp] theorem State.withHostData_frameH (s : State) (d : HostWord) : (s.withHostData d).frameH = s.frameH := rfl
@[simp] theorem State.withHostData_frameN (s : State) (d : HostWord) : (s.withHostData d).frameN = s.frameN := rfl
@[simp] theorem State.withHostData_valid (s : State) (d : HostWord) : validate (s.withHostData d) = validate s := rfl

@[simp] theorem State.withPixout_state (s : State) (v : Pixel) : (s.withPixout v).state = s.state := rfl
@[simp] theorem State.withPixout_err (s : State) (v : Pixel) : (s.withPixout v).err = s.err := rfl
@[simp] theorem State.withPixout_width (s : State) (v : Pixel) : (s.withPixout v).width = s.width := rfl
@[simp] theorem State.withPixout_height (s : State) (v : Pixel) : (s.withPixout v).height = s.height := rfl
@[simp] theorem State.withPixout_frameLen (s : State) (v : Pixel) : (s.withPixout v).frameLen = s.frameLen := rfl
@[simp] theorem State.withPixout_outCap (s : State) (v : Pixel) : (s.withPixout v).outCap = s.outCap := rfl
@[simp] theorem State.withPixout_i (s : State) (v : Pixel) : (s.withPixout v).i = s.i := rfl
@[simp] theorem State.withPixout_k (s : State) (v : Pixel) : (s.withPixout v).k = s.k := rfl
@[simp] theorem State.withPixout_opy (s : State) (v : Pixel) : (s.withPixout v).opy = s.opy := rfl
@[simp] theorem State.withPixout_opu (s : State) (v : Pixel) : (s.withPixout v).opu = s.opu := rfl
@[simp] theorem State.withPixout_opv (s : State) (v : Pixel) : (s.withPixout v).opv = s.opv := rfl
@[simp] theorem State.withPixout_pixout (s : State) (v : Pixel) : (s.withPixout v).pixout = v := rfl
@[simp] theorem State.withPixout_frame (s : State) (v : Pixel) : (s.withPixout v).frame = s.frame := rfl
@[simp] theorem State.withPixout_pix (s : State) (v : Pixel) : (s.withPixout v).pix = s.pix := rfl
@[simp] theorem State.withPixout_turns (s : State) (v : Pixel) : (s.withPixout v).turns = s.turns := rfl
@[simp] theorem State.withPixout_hostData (s : State) (v : Pixel) : (s.withPixout v).hostData = s.hostData := rfl
@[simp] theorem State.withPixout_stale (s : State) (v : Pixel) : (s.withPixout v).stale = s.stale := rfl
@[simp] theorem State.withPixout_pixOld (s : State) (v : Pixel) : (s.withPixout v).pixOld = s.pixOld := rfl
@[simp] theorem State.withPixout_pixFrame (s : State) (v : Pixel) : (s.withPixout v).pixFrame = s.pixFrame := rfl
@[simp] theorem State.withPixout_draws (s : State) (v : Pixel) : (s.withPixout v).draws = s.draws := rfl
@[simp] theorem State.withPixout_dimW (s : State) (v : Pixel) : (s.withPixout v).dimW = s.dimW := rfl
@[simp] theorem State.withPixout_dimH (s : State) (v : Pixel) : (s.withPixout v).dimH = s.dimH := rfl
@[simp] theorem State.withPixout_frameW (s : State) (v : Pixel) : (s.withPixout v).frameW = s.frameW := rfl
@[simp] theorem State.withPixout_frameH (s : State) (v : Pixel) : (s.withPixout v).frameH = s.frameH := rfl
@[simp] theorem State.withPixout_frameN (s : State) (v : Pixel) : (s.withPixout v).frameN = s.frameN := rfl
@[simp] theorem State.withPixout_valid (s : State) (v : Pixel) : validate (s.withPixout v) = validate s := rfl

@[simp] theorem State.withFrame_state (s : State) (b : Buffer 8) : (s.withFrame b).state = s.state := rfl
@[simp] theorem State.withFrame_err (s : State) (b : Buffer 8) : (s.withFrame b).err = s.err := rfl
@[simp] theorem State.withFrame_width (s : State) (b : Buffer 8) : (s.withFrame b).width = s.width := rfl
@[simp] theorem State.withFrame_height (s : State) (b : Buffer 8) : (s.withFrame b).height = s.height := rfl
@[simp] theorem State.withFrame_frameLen (s : State) (b : Buffer 8) : (s.withFrame b).frameLen = s.frameLen := rfl
@[simp] theorem State.withFrame_outCap (s : State) (b : Buffer 8) : (s.withFrame b).outCap = s.outCap := rfl
@[simp] theorem State.withFrame_i (s : State) (b : Buffer 8) : (s.withFrame b).i = s.i := rfl
@[simp] theorem State.withFrame_k (s : State) (b : Buffer 8) : (s.withFrame b).k = s.k := rfl
@[simp] theorem State.withFrame_opy (s : State) (b : Buffer 8) : (s.withFrame b).opy = s.opy := rfl
@[simp] theorem State.withFrame_opu (s : State) (b : Buffer 8) : (s.withFrame b).opu = s.opu := rfl
@[simp] theorem State.withFrame_opv (s : State) (b : Buffer 8) : (s.withFrame b).opv = s.opv := rfl
@[simp] theorem State.withFrame_pixout (s : State) (b : Buffer 8) : (s.withFrame b).pixout = s.pixout := rfl
@[simp] theorem State.withFrame_frame (s : State) (b : Buffer 8) : (s.withFrame b).frame = b := rfl
@[simp] theorem State.withFrame_pix (s : State) (b : Buffer 8) : (s.withFrame b).pix = s.pix := rfl
@[simp] theorem State.withFrame_turns (s : State) (b : Buffer 8) : (s.withFrame b).turns = s.turns := rfl
@[simp] theorem State.withFrame_hostData (s : State) (b : Buffer 8) : (s.withFrame b).hostData = s.hostData := rfl
@[simp] theorem State.withFrame_stale (s : State) (b : Buffer 8) : (s.withFrame b).stale = s.stale := rfl
@[simp] theorem State.withFrame_pixOld (s : State) (b : Buffer 8) : (s.withFrame b).pixOld = s.pixOld := rfl
@[simp] theorem State.withFrame_pixFrame (s : State) (b : Buffer 8) : (s.withFrame b).pixFrame = s.pixFrame := rfl
@[simp] theorem State.withFrame_draws (s : State) (b : Buffer 8) : (s.withFrame b).draws = s.draws := rfl
@[simp] theorem State.withFrame_dimW (s : State) (b : Buffer 8) : (s.withFrame b).dimW = s.dimW := rfl
@[simp] theorem State.withFrame_dimH (s : State) (b : Buffer 8) : (s.withFrame b).dimH = s.dimH := rfl
@[simp] theorem State.withFrame_frameW (s : State) (b : Buffer 8) : (s.withFrame b).frameW = s.frameW := rfl
@[simp] theorem State.withFrame_frameH (s : State) (b : Buffer 8) : (s.withFrame b).frameH = s.frameH := rfl
@[simp] theorem State.withFrame_frameN (s : State) (b : Buffer 8) : (s.withFrame b).frameN = s.frameN := rfl
@[simp] theorem State.withFrame_valid (s : State) (b : Buffer 8) : validate (s.withFrame b) = validate s := rfl

@[simp] theorem State.withPix_state (s : State) (b : Buffer 32) : (s.withPix b).state = s.state := rfl
@[simp] theorem State.withPix_err (s : State) (b : Buffer 32) : (s.withPix b).err = s.err := rfl
@[simp] theorem State.withPix_width (s : State) (b : Buffer 32) : (s.withPix b).width = s.width := rfl
@[simp] theorem State.withPix_height (s : State) (b : Buffer 32) : (s.withPix b).height = s.height := rfl
@[simp] theorem State.withPix_frameLen (s : State) (b : Buffer 32) : (s.withPix b).frameLen = s.frameLen := rfl
@[simp] theorem State.withPix_outCap (s : State) (b : Buffer 32) : (s.withPix b).outCap = s.outCap := rfl
@[simp] theorem State.withPix_i (s : State) (b : Buffer 32) : (s.withPix b).i = s.i := rfl
@[simp] theorem State.withPix_k (s : State) (b : Buffer 32) : (s.withPix b).k = s.k := rfl
@[simp] theorem State.withPix_opy (s : State) (b : Buffer 32) : (s.withPix b).opy = s.opy := rfl
@[simp] theorem State.withPix_opu (s : State) (b : Buffer 32) : (s.withPix b).opu = s.opu := rfl
@[simp] theorem State.withPix_opv (s : State) (b : Buffer 32) : (s.withPix b).opv = s.opv := rfl
@[simp] theorem State.withPix_pixout (s : State) (b : Buffer 32) : (s.withPix b).pixout = s.pixout := rfl
@[simp] theorem State.withPix_frame (s : State) (b : Buffer 32) : (s.withPix b).frame = s.frame := rfl
@[simp] theorem State.withPix_pix (s : State) (b : Buffer 32) : (s.withPix b).pix = b := rfl
@[simp] theorem State.withPix_turns (s : State) (b : Buffer 32) : (s.withPix b).turns = s.turns := rfl
@[simp] theorem State.withPix_hostData (s : State) (b : Buffer 32) : (s.withPix b).hostData = s.hostData := rfl
@[simp] theorem State.withPix_stale (s : State) (b : Buffer 32) : (s.withPix b).stale = s.stale := rfl
@[simp] theorem State.withPix_pixOld (s : State) (b : Buffer 32) : (s.withPix b).pixOld = s.pixOld := rfl
@[simp] theorem State.withPix_pixFrame (s : State) (b : Buffer 32) : (s.withPix b).pixFrame = s.pixFrame := rfl
@[simp] theorem State.withPix_draws (s : State) (b : Buffer 32) : (s.withPix b).draws = s.draws := rfl
@[simp] theorem State.withPix_dimW (s : State) (b : Buffer 32) : (s.withPix b).dimW = s.dimW := rfl
@[simp] theorem State.withPix_dimH (s : State) (b : Buffer 32) : (s.withPix b).dimH = s.dimH := rfl
@[simp] theorem State.withPix_frameW (s : State) (b : Buffer 32) : (s.withPix b).frameW = s.frameW := rfl
@[simp] theorem State.withPix_frameH (s : State) (b : Buffer 32) : (s.withPix b).frameH = s.frameH := rfl
@[simp] theorem State.withPix_frameN (s : State) (b : Buffer 32) : (s.withPix b).frameN = s.frameN := rfl
@[simp] theorem State.withPix_valid (s : State) (b : Buffer 32) : validate (s.withPix b) = validate s := rfl

@[simp] theorem State.withStale_state (s : State) (m : Memory 8) : (s.withStale m).state = s.state := rfl
@[simp] theorem State.withStale_err (s : State) (m : Memory 8) : (s.withStale m).err = s.err := rfl
@[simp] theorem State.withStale_width (s : State) (m : Memory 8) : (s.withStale m).width = s.width := rfl
@[simp] theorem State.withStale_height (s : State) (m : Memory 8) : (s.withStale m).height = s.height := rfl
@[simp] theorem State.withStale_frameLen (s : State) (m : Memory 8) : (s.withStale m).frameLen = s.frameLen := rfl
@[simp] theorem State.withStale_outCap (s : State) (m : Memory 8) : (s.withStale m).outCap = s.outCap := rfl
@[simp] theorem State.withStale_i (s : State) (m : Memory 8) : (s.withStale m).i = s.i := rfl
@[simp] theorem State.withStale_k (s : State) (m : Memory 8) : (s.withStale m).k = s.k := rfl
@[simp] theorem State.withStale_opy (s : State) (m : Memory 8) : (s.withStale m).opy = s.opy := rfl
@[simp] theorem State.withStale_opu (s : State) (m : Memory 8) : (s.withStale m).opu = s.opu := rfl
@[simp] theorem State.withStale_opv (s : State) (m : Memory 8) : (s.withStale m).opv = s.opv := rfl
@[simp] theorem State.withStale_pixout (s : State) (m : Memory 8) : (s.withStale m).pixout = s.pixout := rfl
@[simp] theorem State.withStale_frame (s : State) (m : Memory 8) : (s.withStale m).frame = s.frame := rfl
@[simp] theorem State.withStale_pix (s : State) (m : Memory 8) : (s.withStale m).pix = s.pix := rfl
@[simp] theorem State.withStale_turns (s : State) (m : Memory 8) : (s.withStale m).turns = s.turns := rfl
@[simp] theorem State.withStale_hostData (s : State) (m : Memory 8) : (s.withStale m).hostData = s.hostData := rfl
@[simp] theorem State.withStale_stale (s : State) (m : Memory 8) : (s.withStale m).stale = m := rfl
@[simp] theorem State.withStale_pixOld (s : State) (m : Memory 8) : (s.withStale m).pixOld = s.pixOld := rfl
@[simp] theorem State.withStale_pixFrame (s : State) (m : Memory 8) : (s.withStale m).pixFrame = s.pixFrame := rfl
@[simp] theorem State.withStale_draws (s : State) (m : Memory 8) : (s.withStale m).draws = s.draws := rfl
@[simp] theorem State.withStale_dimW (s : State) (m : Memory 8) : (s.withStale m).dimW = s.dimW := rfl
@[simp] theorem State.withStale_dimH (s : State) (m : Memory 8) : (s.withStale m).dimH = s.dimH := rfl
@[simp] theorem State.withStale_frameW (s : State) (m : Memory 8) : (s.withStale m).frameW = s.frameW := rfl
@[simp] theorem State.withStale_frameH (s : State) (m : Memory 8) : (s.withStale m).frameH = s.frameH := rfl
@[simp] theorem State.withStale_frameN (s : State) (m : Memory 8) : (s.withStale m).frameN = s.frameN := rfl
@[simp] theorem State.withStale_valid (s : State) (m : Memory 8) : validate (s.withStale m) = validate s := rfl

@[simp] theorem State.withPixFrame_state (s : State) (o : Option Nat) : (s.withPixFrame o).state = s.state := rfl
@[simp] theorem State.withPixFrame_err (s : State) (o : Option Nat) : (s.withPixFrame o).err = s.err := rfl
@[simp] theorem State.withPixFrame_width (s : State) (o : Option Nat) : (s.withPixFrame o).width = s.width := rfl
@[simp] theorem State.withPixFrame_height (s : State) (o : Option Nat) : (s.withPixFrame o).height = s.height := rfl
@[simp] theorem State.withPixFrame_frameLen (s : State) (o : Option Nat) : (s.withPixFrame o).frameLen = s.frameLen := rfl
@[simp] theorem State.withPixFrame_outCap (s : State) (o : Option Nat) : (s.withPixFrame o).outCap = s.outCap := rfl
@[simp] theorem State.withPixFrame_i (s : State) (o : Option Nat) : (s.withPixFrame o).i = s.i := rfl
@[simp] theorem State.withPixFrame_k (s : State) (o : Option Nat) : (s.withPixFrame o).k = s.k := rfl
@[simp] theorem State.withPixFrame_opy (s : State) (o : Option Nat) : (s.withPixFrame o).opy = s.opy := rfl
@[simp] theorem State.withPixFrame_opu (s : State) (o : Option Nat) : (s.withPixFrame o).opu = s.opu := rfl
@[simp] theorem State.withPixFrame_opv (s : State) (o : Option Nat) : (s.withPixFrame o).opv = s.opv := rfl
@[simp] theorem State.withPixFrame_pixout (s : State) (o : Option Nat) : (s.withPixFrame o).pixout = s.pixout := rfl
@[simp] theorem State.withPixFrame_frame (s : State) (o : Option Nat) : (s.withPixFrame o).frame = s.frame := rfl
@[simp] theorem State.withPixFrame_pix (s : State) (o : Option Nat) : (s.withPixFrame o).pix = s.pix := rfl
@[simp] theorem State.withPixFrame_turns (s : State) (o : Option Nat) : (s.withPixFrame o).turns = s.turns := rfl
@[simp] theorem State.withPixFrame_hostData (s : State) (o : Option Nat) : (s.withPixFrame o).hostData = s.hostData := rfl
@[simp] theorem State.withPixFrame_stale (s : State) (o : Option Nat) : (s.withPixFrame o).stale = s.stale := rfl
@[simp] theorem State.withPixFrame_pixOld (s : State) (o : Option Nat) : (s.withPixFrame o).pixOld = s.pixOld := rfl
@[simp] theorem State.withPixFrame_pixFrame (s : State) (o : Option Nat) : (s.withPixFrame o).pixFrame = o := rfl
@[simp] theorem State.withPixFrame_draws (s : State) (o : Option Nat) : (s.withPixFrame o).draws = s.draws := rfl
@[simp] theorem State.withPixFrame_dimW (s : State) (o : Option Nat) : (s.withPixFrame o).dimW = s.dimW := rfl
@[simp] theorem State.withPixFrame_dimH (s : State) (o : Option Nat) : (s.withPixFrame o).dimH = s.dimH := rfl
@[simp] theorem State.withPixFrame_frameW (s : State) (o : Option Nat) : (s.withPixFrame o).frameW = s.frameW := rfl
@[simp] theorem State.withPixFrame_frameH (s : State) (o : Option Nat) : (s.withPixFrame o).frameH = s.frameH := rfl
@[simp] theorem State.withPixFrame_frameN (s : State) (o : Option Nat) : (s.withPixFrame o).frameN = s.frameN := rfl
@[simp] theorem State.withPixFrame_valid (s : State) (o : Option Nat) : validate (s.withPixFrame o) = validate s := rfl

@[simp] theorem State.drawn_state (s : State) : (s.drawn).state = s.state := rfl
@[simp] theorem State.drawn_err (s : State) : (s.drawn).err = s.err := rfl
@[simp] theorem State.drawn_width (s : State) : (s.drawn).width = s.width := rfl
@[simp] theorem State.drawn_height (s : State) : (s.drawn).height = s.height := rfl
@[simp] theorem State.drawn_frameLen (s : State) : (s.drawn).frameLen = s.frameLen := rfl
@[simp] theorem State.drawn_outCap (s : State) : (s.drawn).outCap = s.outCap := rfl
@[simp] theorem State.drawn_i (s : State) : (s.drawn).i = s.i := rfl
@[simp] theorem State.drawn_k (s : State) : (s.drawn).k = s.k := rfl
@[simp] theorem State.drawn_opy (s : State) : (s.drawn).opy = s.opy := rfl
@[simp] theorem State.drawn_opu (s : State) : (s.drawn).opu = s.opu := rfl
@[simp] theorem State.drawn_opv (s : State) : (s.drawn).opv = s.opv := rfl
@[simp] theorem State.drawn_pixout (s : State) : (s.drawn).pixout = s.pixout := rfl
@[simp] theorem State.drawn_frame (s : State) : (s.drawn).frame = s.frame := rfl
@[simp] theorem State.drawn_pix (s : State) : (s.drawn).pix = s.pix := rfl
@[simp] theorem State.drawn_turns (s : State) : (s.drawn).turns = s.turns := rfl
@[simp] theorem State.drawn_hostData (s : State) : (s.drawn).hostData = s.hostData := rfl
@[simp] theorem State.drawn_stale (s : State) : (s.drawn).stale = s.stale := rfl
@[simp] theorem State.drawn_pixOld (s : State) : (s.drawn).pixOld = s.pixOld := rfl
@[simp] theorem State.drawn_pixFrame (s : State) : (s.drawn).pixFrame = s.pixFrame := rfl
@[simp] theorem State.drawn_draws (s : State) : (s.drawn).draws = s.draws + 1 := rfl
@[simp] theorem State.drawn_dimW (s : State) : (s.drawn).dimW = s.dimW := rfl
@[simp] theorem State.drawn_dimH (s : State) : (s.drawn).dimH = s.dimH := rfl
@[simp] theorem State.drawn_frameW (s : State) : (s.drawn).frameW = s.frameW := rfl
@[simp] theorem State.drawn_frameH (s : State) : (s.drawn).frameH = s.frameH := rfl
@[simp] theorem State.drawn_frameN (s : State) : (s.drawn).frameN = s.frameN := rfl
@[simp] theorem State.drawn_valid (s : State) : validate (s.drawn) = validate s := rfl

@[simp] theorem State.withIndices_state (s : State) (i k : Index) : (s.withIndices i k).state = s.state := rfl
@[simp] theorem State.withIndices_err (s : State) (i k : Index) : (s.withIndices i k).err = s.err := rfl
@[simp] theorem State.withIndices_width (s : State) (i k : Index) : (s.withIndices i k).width = s.width := rfl
@[simp] theorem State.withIndices_height (s : State) (i k : Index) : (s.withIndices i k).height = s.height := rfl
@[simp] theorem State.withIndices_frameLen (s : State) (i k : Index) : (s.withIndices i k).frameLen = s.frameLen := rfl
@[simp] theorem State.withIndices_outCap (s : State) (i k : Index) : (s.withIndices i k).outCap = s.outCap := rfl
@[simp] theorem State.withIndices_i (s : State) (i k : Index) : (s.withIndices i k).i = i := rfl
@[simp] theorem State.withIndices_k (s : State) (i k : Index) : (s.withIndices i k).k = k := rfl
@[simp] theorem State.withIndices_opy (s : State) (i k : Index) : (s.withIndices i k).opy = s.opy := rfl
@[simp] theorem State.withIndices_opu (s : State) (i k : Index) : (s.withIndices i k).opu = s.opu := rfl
@[simp] theorem State.withIndices_opv (s : State) (i k : Index) : (s.withIndices i k).opv = s.opv := rfl
@[simp] theorem State.withIndices_pixout (s : State) (i k : Index) : (s.withIndices i k).pixout = s.pixout := rfl
@[simp] theorem State.withIndices_frame (s : State) (i k : Index) : (s.withIndices i k).frame = s.frame := rfl
@[simp] theorem State.withIndices_pix (s : State) (i k : Index) : (s.withIndices i k).pix = s.pix := rfl
@[simp] theorem State.withIndices_turns (s : State) (i k : Index) : (s.withIndices i k).turns = s.turns := rfl
@[simp] theorem State.withIndices_hostData (s : State) (i k : Index) : (s.withIndices i k).hostData = s.hostData := rfl
@[simp] theorem State.withIndices_stale (s : State) (i k : Index) : (s.withIndices i k).stale = s.stale := rfl
@[simp] theorem State.withIndices_pixOld (s : State) (i k : Index) : (s.withIndices i k).pixOld = s.pixOld := rfl
@[simp] theorem State.withIndices_pixFrame (s : State) (i k : Index) : (s.withIndices i k).pixFrame = s.pixFrame := rfl
@[simp] theorem State.withIndices_draws (s : State) (i k : Index) : (s.withIndices i k).draws = s.draws := rfl
@[simp] theorem State.withIndices_dimW (s : State) (i k : Index) : (s.withIndices i k).dimW = s.dimW := rfl
@[simp] theorem State.withIndices_dimH (s : State) (i k : Index) : (s.withIndices i k).dimH = s.dimH := rfl
@[simp] theorem State.withIndices_frameW (s : State) (i k : Index) : (s.withIndices i k).frameW = s.frameW := rfl
@[simp] theorem State.withIndices_frameH (s : State) (i k : Index) : (s.withIndices i k).frameH = s.frameH := rfl
@[simp] theorem State.withIndices_frameN (s : State) (i k : Index) : (s.withIndices i k).frameN = s.frameN := rfl
@[simp] theorem State.withIndices_valid (s : State) (i k : Index) : validate (s.withIndices i k) = validate s := rfl

@[simp] theorem State.storePixels_state (s : State) (ws : List (Nat × Pixel)) : (s.storePixels ws).state = s.state := rfl
@[simp] theorem State.storePixels_err (s : State) (ws : List (Nat × Pixel)) : (s.storePixels ws).err = s.err := rfl
@[simp] theorem State.storePixels_width (s : State) (ws : List (Nat × Pixel)) : (s.storePixels ws).width = s.width := rfl
@[simp] theorem State.storePixels_height (s : State) (ws : List (Nat × Pixel)) : (s.storePixels ws).height = s.height := rfl
@[simp] theorem State.storePixels_frameLen (s : State) (ws : List (Nat × Pixel)) : (s.storePixels ws).frameLen = s.frameLen := rfl
@[simp] theorem State.storePixels_outCap (s : State) (ws : List (Nat × Pixel)) : (s.storePixels ws).outCap = s.outCap := rfl
@[simp] theorem State.storePixels_i (s : State) (ws : List (Nat × Pixel)) : (s.storePixels ws).i = s.i := rfl
@[simp] theorem State.storePixels_k (s : State) (ws : List (Nat × Pixel)) : (s.storePixels ws).k = s.k := rfl
@[simp] theorem State.storePixels_opy (s : State) (ws : List (Nat × Pixel)) : (s.storePixels ws).opy = s.opy := rfl
@[simp] theorem State.storePixels_opu (s : State) (ws : List (Nat × Pixel)) : (s.storePixels ws).opu = s.opu := rfl
@[simp] theorem State.storePixels_opv (s : State) (ws : List (Nat × Pixel)) : (s.storePixels ws).opv = s.opv := rfl
@[simp] theorem State.storePixels_pixout (s : State) (ws : List (Nat × Pixel)) : (s.storePixels ws).pixout = s.pixout := rfl
@[simp] theorem State.storePixels_frame (s : State) (ws : List (Nat × Pixel)) : (s.storePixels ws).frame = s.frame := rfl
@[simp] theorem State.storePixels_pix (s : State) (ws : List (Nat × Pixel)) : (s.storePixels ws).pix = { s.pix with cells := Memory.writeAll s.pix.cells ws } := rfl
@[simp] theorem State.storePixels_turns (s : State) (ws : List (Nat × Pixel)) : (s.storePixels ws).turns = s.turns := rfl
@[simp] theorem State.storePixels_hostData (s : State) (ws : List (Nat × Pixel)) : (s.storePixels ws).hostData = s.hostData := rfl
@[simp] theorem State.storePixels_stale (s : State) (ws : List (Nat × Pixel)) : (s.storePixels ws).stale = s.stale := rfl
@[simp] theorem State.storePixels_pixOld (s : State) (ws : List (Nat × Pixel)) : (s.storePixels ws).pixOld = s.pixOld := rfl
@[simp] theorem State.storePixels_pixFrame (s : State) (ws : List (Nat × Pixel)) : (s.storePixels ws).pixFrame = s.pixFrame := rfl
@[simp] theorem State.storePixels_draws (s : State) (ws : List (Nat × Pixel)) : (s.storePixels ws).draws = s.draws := rfl
@[simp] theorem State.storePixels_dimW (s : State) (ws : List (Nat × Pixel)) : (s.storePixels ws).dimW = s.dimW := rfl
@[simp] theorem State.storePixels_dimH (s : State) (ws : List (Nat × Pixel)) : (s.storePixels ws).dimH = s.dimH := rfl
@[simp] theorem State.storePixels_frameW (s : State) (ws : List (Nat × Pixel)) : (s.storePixels ws).frameW = s.frameW := rfl
@[simp] theorem State.storePixels_frameH (s : State) (ws : List (Nat × Pixel)) : (s.storePixels ws).frameH = s.frameH := rfl
@[simp] theorem State.storePixels_frameN (s : State) (ws : List (Nat × Pixel)) : (s.storePixels ws).frameN = s.frameN := rfl
@[simp] theorem State.storePixels_valid (s : State) (ws : List (Nat × Pixel)) : validate (s.storePixels ws) = validate s := rfl

@[simp] theorem State.raise_state (s : State) (e : FaultCode) : (s.raise e).state = .fault := rfl
@[simp] theorem State.raise_err (s : State) (e : FaultCode) : (s.raise e).err = some e := rfl
@[simp] theorem State.raise_width (s : State) (e : FaultCode) : (s.raise e).width = s.width := rfl
@[simp] theorem State.raise_height (s : State) (e : FaultCode) : (s.raise e).height = s.height := rfl
@[simp] theorem State.raise_frameLen (s : State) (e : FaultCode) : (s.raise e).frameLen = s.frameLen := rfl
@[simp] theorem State.raise_outCap (s : State) (e : FaultCode) : (s.raise e).outCap = s.outCap := rfl
@[simp] theorem State.raise_i (s : State) (e : FaultCode) : (s.raise e).i = s.i := rfl
@[simp] theorem State.raise_k (s : State) (e : FaultCode) : (s.raise e).k = s.k := rfl
@[simp] theorem State.raise_opy (s : State) (e : FaultCode) : (s.raise e).opy = s.opy := rfl
@[simp] theorem State.raise_opu (s : State) (e : FaultCode) : (s.raise e).opu = s.opu := rfl
@[simp] theorem State.raise_opv (s : State) (e : FaultCode) : (s.raise e).opv = s.opv := rfl
@[simp] theorem State.raise_pixout (s : State) (e : FaultCode) : (s.raise e).pixout = s.pixout := rfl
@[simp] theorem State.raise_frame (s : State) (e : FaultCode) : (s.raise e).frame = s.frame := rfl
@[simp] theorem State.raise_pix (s : State) (e : FaultCode) : (s.raise e).pix = s.pix := rfl
@[simp] theorem State.raise_turns (s : State) (e : FaultCode) : (s.raise e).turns = s.turns := rfl
@[simp] theorem State.raise_hostData (s : State) (e : FaultCode) : (s.raise e).hostData = s.hostData := rfl
@[simp] theorem State.raise_stale (s : State) (e : FaultCode) : (s.raise e).stale = s.stale := rfl
@[simp] theorem State.raise_pixOld (s : State) (e : FaultCode) : (s.raise e).pixOld = s.pixOld := rfl
@[simp] theorem State.raise_pixFrame (s : State) (e : FaultCode) : (s.raise e).pixFrame = s.pixFrame := rfl
@[simp] theorem State.raise_draws (s : State) (e : FaultCode) : (s.raise e).draws = s.draws := rfl
@[simp] theorem State.raise_dimW (s : State) (e : FaultCode) : (s.raise e).dimW = s.dimW := rfl
@[simp] theorem State.raise_dimH (s : State) (e : FaultCode) : (s.raise e).dimH = s.dimH := rfl
@[simp] theorem State.raise_frameW (s : State) (e : FaultCode) : (s.raise e).frameW = s.frameW := rfl
@[simp] theorem State.raise_frameH (s : State) (e : FaultCode) : (s.raise e).frameH = s.frameH := rfl
@[simp] theorem State.raise_frameN (s : State) (e : FaultCode) : (s.raise e).frameN = s.frameN := rfl
@[simp] theorem State.raise_valid (s : State) (e : FaultCode) : validate (s.raise e) = validate s := rfl

@[simp] theorem State.beginDecode_state (s : State) : (s.beginDecode).state = s.state := rfl
@[simp] theorem State.beginDecode_err (s : State) : (s.beginDecode).err = none := rfl
@[simp] theorem State.beginDecode_width (s : State) : (s.beginDecode).width = s.width := rfl
@[simp] theorem State.beginDecode_height (s : State) : (s.beginDecode).height = s.height := rfl
@[simp] theorem State.beginDecode_frameLen (s : State) : (s.beginDecode).frameLen = s.frameLen := rfl
@[simp] theorem State.beginDecode_outCap (s : State) : (s.beginDecode).outCap = s.outCap := rfl
@[simp] theorem State.beginDecode_i (s : State) : (s.beginDecode).i = 0#32 := rfl
@[simp] theorem State.beginDecode_k (s : State) : (s.beginDecode).k = 0#32 := rfl
@[simp] theorem State.beginDecode_opy (s : State) : (s.beginDecode).opy = s.opy := rfl
@[simp] theorem State.beginDecode_opu (s : State) : (s.beginDecode).opu = s.opu := rfl
@[simp] theorem State.beginDecode_opv (s : State) : (s.beginDecode).opv = s.opv := rfl
@[simp] theorem State.beginDecode_pixout (s : State) : (s.beginDecode).pixout = s.pixout := rfl
@[simp] theorem State.beginDecode_frame (s : State) : (s.beginDecode).frame = s.frame := rfl
@[simp] theorem State.beginDecode_pix (s : State) : (s.beginDecode).pix = s.pix := rfl
@[simp] theorem State.beginDecode_turns (s : State) : (s.beginDecode).turns = s.turns := rfl
@[simp] theorem State.beginDecode_hostData (s : State) : (s.beginDecode).hostData = s.hostData := rfl
@[simp] theorem State.beginDecode_stale (s : State) : (s.beginDecode).stale = s.stale := rfl
@[simp] theorem State.beginDecode_pixOld (s : State) : (s.beginDecode).pixOld = s.pixOld := rfl
@[simp] theorem State.beginDecode_pixFrame (s : State) : (s.beginDecode).pixFrame = s.pixFrame := rfl
@[simp] theorem State.beginDecode_draws (s : State) : (s.beginDecode).draws = s.draws := rfl
@[simp] theorem State.beginDecode_dimW (s : State) : (s.beginDecode).dimW = s.dimW := rfl
@[simp] theorem State.beginDecode_dimH (s : State) : (s.beginDecode).dimH = s.dimH := rfl
@[simp] theorem State.beginDecode_frameW (s : State) : (s.beginDecode).frameW = s.frameW := rfl
@[simp] theorem State.beginDecode_frameH (s : State) : (s.beginDecode).frameH = s.frameH := rfl
@[simp] theorem State.beginDecode_frameN (s : State) : (s.beginDecode).frameN = s.frameN := rfl
@[simp] theorem State.beginDecode_valid (s : State) : validate (s.beginDecode) = validate s := rfl

@[simp] theorem State.enterBusy_state (s : State) : (s.enterBusy).state = .busy := rfl
@[simp] theorem State.enterBusy_err (s : State) : (s.enterBusy).err = s.err := rfl
@[simp] theorem State.enterBusy_width (s : State) : (s.enterBusy).width = s.width := rfl
@[simp] theorem State.enterBusy_height (s : State) : (s.enterBusy).height = s.height := rfl
@[simp] theorem State.enterBusy_frameLen (s : State) : (s.enterBusy).frameLen = s.frameLen := rfl
@[simp] theorem State.enterBusy_outCap (s : State) : (s.enterBusy).outCap = s.outCap := rfl
@[simp] theorem State.enterBusy_i (s : State) : (s.enterBusy).i = s.i := rfl
@[simp] theorem State.enterBusy_k (s : State) : (s.enterBusy).k = s.k := rfl
@[simp] theorem State.enterBusy_opy (s : State) : (s.enterBusy).opy = s.opy := rfl
@[simp] theorem State.enterBusy_opu (s : State) : (s.enterBusy).opu = s.opu := rfl
@[simp] theorem State.enterBusy_opv (s : State) : (s.enterBusy).opv = s.opv := rfl
@[simp] theorem State.enterBusy_pixout (s : State) : (s.enterBusy).pixout = s.pixout := rfl
@[simp] theorem State.enterBusy_frame (s : State) : (s.enterBusy).frame = s.frame := rfl
@[simp] theorem State.enterBusy_pix (s : State) : (s.enterBusy).pix = s.pix := rfl
@[simp] theorem State.enterBusy_turns (s : State) : (s.enterBusy).turns = s.turns := rfl
@[simp] theorem State.enterBusy_hostData (s : State) : (s.enterBusy).hostData = s.hostData := rfl
@[simp] theorem State.enterBusy_stale (s : State) : (s.enterBusy).stale = [] := rfl
@[simp] theorem State.enterBusy_pixOld (s : State) : (s.enterBusy).pixOld = s.pix.cells := rfl
@[simp] theorem State.enterBusy_pixFrame (s : State) : (s.enterBusy).pixFrame = s.pixFrame := rfl
@[simp] theorem State.enterBusy_draws (s : State) : (s.enterBusy).draws = s.draws := rfl
@[simp] theorem State.enterBusy_dimW (s : State) : (s.enterBusy).dimW = s.dimW := rfl
@[simp] theorem State.enterBusy_dimH (s : State) : (s.enterBusy).dimH = s.dimH := rfl
@[simp] theorem State.enterBusy_frameW (s : State) : (s.enterBusy).frameW = s.frameW := rfl
@[simp] theorem State.enterBusy_frameH (s : State) : (s.enterBusy).frameH = s.frameH := rfl
@[simp] theorem State.enterBusy_frameN (s : State) : (s.enterBusy).frameN = s.frameN := rfl
@[simp] theorem State.enterBusy_valid (s : State) : validate (s.enterBusy) = validate s := rfl

@[simp] theorem State.enterDone_state (s : State) : (s.enterDone).state = .done := rfl
@[simp] theorem State.enterDone_err (s : State) : (s.enterDone).err = s.err := rfl
@[simp] theorem State.enterDone_width (s : State) : (s.enterDone).width = s.width := rfl
@[simp] theorem State.enterDone_height (s : State) : (s.enterDone).height = s.height := rfl
@[simp] theorem State.enterDone_frameLen (s : State) : (s.enterDone).frameLen = s.frameLen := rfl
@[simp] theorem State.enterDone_outCap (s : State) : (s.enterDone).outCap = s.outCap := rfl
@[simp] theorem State.enterDone_i (s : State) : (s.enterDone).i = s.i := rfl
@[simp] theorem State.enterDone_k (s : State) : (s.enterDone).k = s.k := rfl
@[simp] theorem State.enterDone_opy (s : State) : (s.enterDone).opy = s.opy := rfl
@[simp] theorem State.enterDone_opu (s : State) : (s.enterDone).opu = s.opu := rfl
@[simp] theorem State.enterDone_opv (s : State) : (s.enterDone).opv = s.opv := rfl
@[simp] theorem State.enterDone_pixout (s : State) : (s.enterDone).pixout = s.pixout := rfl
@[simp] theorem State.enterDone_frame (s : State) : (s.enterDone).frame = s.frame := rfl
@[simp] theorem State.enterDone_pix (s : State) : (s.enterDone).pix = s.pix := rfl
@[simp] theorem State.enterDone_turns (s : State) : (s.enterDone).turns = s.turns := rfl
@[simp] theorem State.enterDone_hostData (s : State) : (s.enterDone).hostData = s.hostData := rfl
@[simp] theorem State.enterDone_stale (s : State) : (s.enterDone).stale = [] := rfl
@[simp] theorem State.enterDone_pixOld (s : State) : (s.enterDone).pixOld = [] := rfl
@[simp] theorem State.enterDone_pixFrame (s : State) : (s.enterDone).pixFrame = s.pixFrame := rfl
@[simp] theorem State.enterDone_draws (s : State) : (s.enterDone).draws = s.draws := rfl
@[simp] theorem State.enterDone_dimW (s : State) : (s.enterDone).dimW = s.dimW := rfl
@[simp] theorem State.enterDone_dimH (s : State) : (s.enterDone).dimH = s.dimH := rfl
@[simp] theorem State.enterDone_frameW (s : State) : (s.enterDone).frameW = s.frameW := rfl
@[simp] theorem State.enterDone_frameH (s : State) : (s.enterDone).frameH = s.frameH := rfl
@[simp] theorem State.enterDone_frameN (s : State) : (s.enterDone).frameN = s.frameN := rfl
@[simp] theorem State.enterDone_valid (s : State) : validate (s.enterDone) = validate s := rfl

@[simp] theorem State.advance_state (s : State) : (s.advance).state = s.state := rfl
@[simp] theorem State.advance_err (s : State) : (s.advance).err = s.err := rfl
@[simp] theorem State.advance_width (s : State) : (s.advance).width = s.width := rfl
@[simp] theorem State.advance_height (s : State) : (s.advance).height = s.height := rfl
@[simp] theorem State.advance_frameLen (s : State) : (s.advance).frameLen = s.frameLen := rfl
@[simp] theorem State.advance_outCap (s : State) : (s.advance).outCap = s.outCap := rfl
@[simp] theorem State.advance_i (s : State) : (s.advance).i = BitVec.ofNat 32 (advanceI s.frameW s.i.toNat) := rfl
@[simp] theorem State.advance_k (s : State) : (s.advance).k = BitVec.ofNat 32 (s.k.toNat + 2) := rfl
@[simp] theorem State.advance_opy (s : State) : (s.advance).opy = s.opy := rfl
@[simp] theorem State.advance_opu (s : State) : (s.advance).opu = s.opu := rfl
@[simp] theorem State.advance_opv (s : State) : (s.advance).opv = s.opv := rfl
@[simp] theorem State.advance_pixout (s : State) : (s.advance).pixout = s.pixout := rfl
@[simp] theorem State.advance_frame (s : State) : (s.advance).frame = s.frame := rfl
@[simp] theorem State.advance_pix (s : State) : (s.advance).pix = s.pix := rfl
@[simp] theorem State.advance_turns (s : State) : (s.advance).turns = s.turns := rfl
@[simp] theorem State.advance_hostData (s : State) : (s.advance).hostData = s.hostData := rfl
@[simp] theorem State.advance_stale (s : State) : (s.advance).stale = s.stale := rfl
@[simp] theorem State.advance_pixOld (s : State) : (s.advance).pixOld = s.pixOld := rfl
@[simp] theorem State.advance_pixFrame (s : State) : (s.advance).pixFrame = s.pixFrame := rfl
@[simp] theorem State.advance_draws (s : State) : (s.advance).draws = s.draws := rfl
@[simp] theorem State.advance_dimW (s : State) : (s.advance).dimW = s.dimW := rfl
@[simp] theorem State.advance_dimH (s : State) : (s.advance).dimH = s.dimH := rfl
@[simp] theorem State.advance_frameW (s : State) : (s.advance).frameW = s.frameW := rfl
@[simp] theorem State.advance_frameH (s : State) : (s.advance).frameH = s.frameH := rfl
@[simp] theorem State.advance_frameN (s : State) : (s.advance).frameN = s.frameN := rfl
@[simp] theorem State.advance_valid (s : State) : validate (s.advance) = validate s := rfl

end Sys2Proof.Machine
end

