-- ==== Sys2Proof/Laws/FrameDecoder.lean ====
section
/-! SUPPORT. The geometry of a legal frame, the block sequence, and what a block step does. -/

namespace Sys2Proof.Machine

theorem State.dimW_lt (s : State) : s.dimW < 32768 := by
  have := s.width.toInt_lt
  simpa [State.dimW, sval16] using this

theorem State.dimH_lt (s : State) : s.dimH < 32768 := by
  have := s.height.toInt_lt
  simpa [State.dimH, sval16] using this

/-- Validation in the terms of the address computations (R51): both dimensions positive and even, FRAME_LEN long enough,
OUT_CAP exact. -/
theorem valid_iff (s : State) :
    validate s = none ↔ 0 < s.frameW ∧ 0 < s.frameH ∧ s.frameW % 2 = 0 ∧ s.frameH % 2 = 0 ∧
      s.frameN + s.frameN / 2 ≤ s.frameLen.toNat ∧ s.outCap.toNat = s.frameN := by
  have hpos : ∀ x : Int, (x ≤ 0 ∧ x.toNat = 0) ∨ (0 < x ∧ (x.toNat : Int) = x) := fun x => by omega
  unfold validate State.frameN State.frameW State.frameH
  rcases hpos s.dimW with ⟨h, e⟩ | ⟨h, e⟩
  · simp [h, e]
  · rcases hpos s.dimH with ⟨h', e'⟩ | ⟨h', e'⟩
    · simp [h', e']
    · have hN : ((s.dimW.toNat * s.dimH.toNat : Nat) : Int) = s.dimW * s.dimH := by push_cast; rw [e, e']
      simp only
      generalize s.dimW * s.dimH = N at hN ⊢
      generalize s.dimW.toNat * s.dimH.toNat = M at hN ⊢
      split
      · simp; omega
      · split
        · simp; omega
        · split
          · simp; omega
          · simp; omega

/-- A legal frame: W = 2a and H = 2b with a, b positive and small, so that N = 4ab fits the index registers (R4). -/
theorem valid_dims {s : State} (h : validate s = none) :
    ∃ a b, 0 < a ∧ 0 < b ∧ s.frameW = 2 * a ∧ s.frameH = 2 * b ∧ s.frameN = 4 * (a * b) ∧ s.frameN ≤ 1073610756 := by
  obtain ⟨hw, hh, ew, eh, -, -⟩ := (valid_iff s).1 h
  refine ⟨s.frameW / 2, s.frameH / 2, by omega, by omega, by omega, by omega, ?_, ?_⟩
  · have h₁ : s.frameW = 2 * (s.frameW / 2) := by omega
    have h₂ : s.frameH = 2 * (s.frameH / 2) := by omega
    unfold State.frameN
    generalize s.frameW / 2 = a at *
    generalize s.frameH / 2 = b at *
    rw [h₁, h₂]; ring
  · have h₁ := s.dimW_lt
    have h₂ := s.dimH_lt
    have h₃ : s.frameW ≤ 32766 := by unfold State.frameW at *; omega
    have h₄ : s.frameH ≤ 32766 := by unfold State.frameH at *; omega
    exact Nat.mul_le_mul h₃ h₄

theorem blockI_eq (a t : Nat) : blockI (2 * a) t = 4 * (a * (t / a)) + 2 * (t % a) := by
  have : 2 * a / 2 = a := by omega
  unfold blockI
  rw [this]; ring

@[simp] theorem blockI_zero (w : Nat) : blockI w 0 = 0 := by simp [blockI]

/-- One Advance goes from a block of the sequence to the next (R54, R57). -/
theorem advanceI_blockI {a : Nat} (ha : 0 < a) (t : Nat) : advanceI (2 * a) (blockI (2 * a) t) = blockI (2 * a) (t + 1) := by
  have hr := Nat.mod_lt t ha
  have ht := Nat.div_add_mod t a
  rw [blockI_eq, blockI_eq]
  unfold advanceI
  generalize hq : t / a = q at *
  generalize hr' : t % a = r at *
  simp only
  by_cases h : r + 1 = a
  · have e₁ : (t + 1) / a = q + 1 := by
      rw [Nat.div_eq_of_lt_le] <;> nlinarith
    have e₂ : (t + 1) % a = 0 := by
      have : t + 1 = a * (q + 1) := by rw [Nat.mul_add]; omega
      rw [this]; exact Nat.mul_mod_right _ _
    have e₃ : 4 * (a * q) + 2 * r + 2 = 2 * a * (2 * q + 1) := by subst h; ring
    rw [e₁, e₂, e₃, Nat.mul_mod_right, if_pos rfl]
    ring
  · have e₁ : (t + 1) / a = q := by
      rw [Nat.div_eq_of_lt_le]
      · rw [Nat.mul_comm]; omega
      · rw [Nat.add_mul, Nat.mul_comm q a]; omega
    have e₂ : (t + 1) % a = r + 1 := by
      have := Nat.div_add_mod (t + 1) a
      rw [e₁] at this; omega
    have e₃ : 4 * (a * q) + 2 * r + 2 = 2 * (r + 1) + 2 * a * (2 * q) := by ring
    have e₄ : (4 * (a * q) + 2 * r + 2) % (2 * a) ≠ 0 := by
      rw [e₃, Nat.add_mul_mod_self_left, Nat.mod_eq_of_lt (by omega)]; omega
    rw [if_neg e₄, e₁, e₂]; ring

/-- After the last block of a frame the sequence stands at N (R55). -/
theorem blockI_last {a : Nat} (ha : 0 < a) (b : Nat) : blockI (2 * a) (a * b) = 4 * (a * b) := by
  rw [blockI_eq, Nat.mul_div_cancel_left _ ha, Nat.mul_mod_right]; ring

/-- A block of the frame lies inside the Y plane: its bottom-right sample too (R34). -/
theorem blockI_add_lt {a b t : Nat} (ha : 0 < a) (ht : t < a * b) : blockI (2 * a) t + 2 * a + 1 < 4 * (a * b) := by
  have hr := Nat.mod_lt t ha
  have hq : t / a < b := by rw [Nat.div_lt_iff_lt_mul ha, Nat.mul_comm]; exact ht
  have hm : a * (t / a + 1) ≤ a * b := Nat.mul_le_mul_left a hq
  rw [blockI_eq]
  rw [Nat.mul_add] at hm
  omega

/-- The addresses of a block step are those of its block, with the words it writes there (R52). -/
theorem State.blockPixels_addrs (s : State) : s.blockPixels.map Prod.fst = blockAddrs s.frameW s.i.toNat := rfl

/-- Everything a block step can do (R53, R98): it stores the four words, draws, advances and perhaps ends the decode, or
it is refused because a word would fall outside PIX. -/
theorem blockStep_cases (s : State) :
    ((∀ p ∈ blockAddrs s.frameW s.i.toNat, p < s.pix.size) ∧
        blockStep s = .next (s.storePixels s.blockPixels).drawn.advance.finishIfDone) ∨
      ((∃ p ∈ blockAddrs s.frameW s.i.toNat, s.pix.size ≤ p) ∧ blockStep s = .refused .coreWriteOutsidePix) := by
  by_cases h : ∀ p ∈ blockAddrs s.frameW s.i.toNat, p < s.pix.size
  · left
    refine ⟨h, if_pos ?_⟩
    rw [List.all_eq_true]
    intro x hx
    exact decide_eq_true (h _ (s.blockPixels_addrs ▸ List.mem_map_of_mem hx))
  · right
    refine ⟨by simpa using h, if_neg ?_⟩
    rw [List.all_eq_true]
    intro hall
    refine h fun p hp => ?_
    rw [← s.blockPixels_addrs] at hp
    obtain ⟨x, hx, rfl⟩ := List.mem_map.1 hp
    exact of_decide_eq_true (hall x hx)

/-- If a block step answers a next state, it is this one. -/
theorem blockStep_next {s t : State} (h : blockStep s = .next t) :
    (∀ p ∈ blockAddrs s.frameW s.i.toNat, p < s.pix.size) ∧
      t = (s.storePixels s.blockPixels).drawn.advance.finishIfDone := by
  rcases blockStep_cases s with ⟨h₁, h₂⟩ | ⟨-, h₂⟩
  · rw [h₂] at h; exact ⟨h₁, by injection h with h; exact h.symm⟩
  · rw [h₂] at h; cases h

/-- What the end of a block step can do (R55). -/
theorem State.finishIfDone_cases (s : State) :
    (s.i.toNat = s.frameN ∧ s.finishIfDone = s.enterDone) ∨ (s.i.toNat ≠ s.frameN ∧ s.finishIfDone = s) := by
  unfold State.finishIfDone; split <;> simp_all

@[simp] theorem State.finishIfDone_frame (s : State) : s.finishIfDone.frame = s.frame := by
  unfold State.finishIfDone; split <;> rfl
@[simp] theorem State.finishIfDone_pix (s : State) : s.finishIfDone.pix = s.pix := by
  unfold State.finishIfDone; split <;> rfl
@[simp] theorem State.finishIfDone_i (s : State) : s.finishIfDone.i = s.i := by
  unfold State.finishIfDone; split <;> rfl
@[simp] theorem State.finishIfDone_k (s : State) : s.finishIfDone.k = s.k := by
  unfold State.finishIfDone; split <;> rfl
@[simp] theorem State.finishIfDone_width (s : State) : s.finishIfDone.width = s.width := by
  unfold State.finishIfDone; split <;> rfl
@[simp] theorem State.finishIfDone_height (s : State) : s.finishIfDone.height = s.height := by
  unfold State.finishIfDone; split <;> rfl
@[simp] theorem State.finishIfDone_frameLen (s : State) : s.finishIfDone.frameLen = s.frameLen := by
  unfold State.finishIfDone; split <;> rfl
@[simp] theorem State.finishIfDone_outCap (s : State) : s.finishIfDone.outCap = s.outCap := by
  unfold State.finishIfDone; split <;> rfl
@[simp] theorem State.finishIfDone_opy (s : State) : s.finishIfDone.opy = s.opy := by
  unfold State.finishIfDone; split <;> rfl
@[simp] theorem State.finishIfDone_opu (s : State) : s.finishIfDone.opu = s.opu := by
  unfold State.finishIfDone; split <;> rfl
@[simp] theorem State.finishIfDone_opv (s : State) : s.finishIfDone.opv = s.opv := by
  unfold State.finishIfDone; split <;> rfl
@[simp] theorem State.finishIfDone_pixout (s : State) : s.finishIfDone.pixout = s.pixout := by
  unfold State.finishIfDone; split <;> rfl
@[simp] theorem State.finishIfDone_err (s : State) : s.finishIfDone.err = s.err := by
  unfold State.finishIfDone; split <;> rfl
@[simp] theorem State.finishIfDone_turns (s : State) : s.finishIfDone.turns = s.turns := by
  unfold State.finishIfDone; split <;> rfl
@[simp] theorem State.finishIfDone_hostData (s : State) : s.finishIfDone.hostData = s.hostData := by
  unfold State.finishIfDone; split <;> rfl
@[simp] theorem State.finishIfDone_pixFrame (s : State) : s.finishIfDone.pixFrame = s.pixFrame := by
  unfold State.finishIfDone; split <;> rfl
@[simp] theorem State.finishIfDone_draws (s : State) : s.finishIfDone.draws = s.draws := by
  unfold State.finishIfDone; split <;> rfl
@[simp] theorem State.finishIfDone_frameW (s : State) : s.finishIfDone.frameW = s.frameW := by
  unfold State.finishIfDone; split <;> rfl
@[simp] theorem State.finishIfDone_frameN (s : State) : s.finishIfDone.frameN = s.frameN := by
  unfold State.finishIfDone; split <;> rfl

/-- A byte of FRAME as CORE reads it is the byte that stands there, if it exists and HOST has not changed it during the
decode (R26, R33). -/
theorem State.frameByte_eq {s : State} {a : Nat} (ha : a < s.frame.size) (hs : Memory.read s.stale a = none) :
    s.frameByte a = frameStored s.frame a := by simp [State.frameByte, ha, hs]

/-- A word of PIX that is not in the list of writes is as it was. -/
theorem pixStored_writeAll_of_not_mem (b : Buffer 32) (ws : List (Nat × Pixel)) (p : Nat) (h : p ∉ ws.map Prod.fst) :
    pixStored { b with cells := Memory.writeAll b.cells ws } p = pixStored b p := by
  unfold pixStored
  simp only [Memory.read_writeAll_of_not_mem _ _ _ h]

/-- Row and column from a flat index (R28, R30). -/
theorem row_col_of_index {w row col : Nat} (h : col < w) : (w * row + col) / w = row ∧ (w * row + col) % w = col := by
  constructor
  · rw [Nat.mul_add_div (by omega), Nat.div_eq_of_lt h]; omega
  · rw [Nat.mul_add_mod, Nat.mod_eq_of_lt h]

/-- The four indices of a block are the pixels that belong to it (R52, R57). -/
theorem mem_blockAddrs_iff {a t p : Nat} (ha : 0 < a) :
    p ∈ blockAddrs (2 * a) (blockI (2 * a) t) ↔ blockOfPixel (2 * a) p = t := by
  have hr := Nat.mod_lt t ha
  have ht := Nat.div_add_mod t a
  have h2 : 2 * a / 2 = a := by omega
  rw [blockI_eq]
  unfold blockAddrs blockOfPixel
  rw [h2]
  constructor
  · intro h
    have : ∃ e f, e < 2 ∧ f < 2 ∧ p = (2 * a)*(2*(t / a)+e) + (2*(t % a)+f) := by
      simp only [List.mem_cons, List.not_mem_nil, or_false] at h
      rcases h with h | h | h | h
      · exact ⟨0,0,by omega,by omega, by rw [h]; ring⟩
      · exact ⟨0,1,by omega,by omega, by rw [h]; ring⟩
      · exact ⟨1,0,by omega,by omega, by rw [h]; ring⟩
      · exact ⟨1,1,by omega,by omega, by rw [h]; ring⟩
    obtain ⟨e, f, he, hf, rfl⟩ := this
    obtain ⟨h1, h3⟩ := @row_col_of_index (2 * a) (2*(t / a)+e) (2*(t % a)+f) (by omega)
    rw [h1, h3]
    have e1 : (2 * (t / a) + e) / 2 = t / a := by omega
    have e2 : (2 * (t % a) + f) / 2 = t % a := by omega
    rw [e1, e2, Nat.mul_comm]; exact ht
  · intro h
    have hp := Nat.div_add_mod p (2 * a)
    have hc := Nat.mod_lt p (by omega : 0 < 2 * a)
    generalize p / (2 * a) = row at *
    generalize p % (2 * a) = col at *
    obtain ⟨q1, q2⟩ := @row_col_of_index a (row / 2) (col / 2) (by omega)
    rw [Nat.mul_comm] at h
    rw [h] at q1 q2
    rw [q1, q2]
    have hrow := Nat.div_add_mod row 2
    have hcol := Nat.div_add_mod col 2
    have e1 := Nat.mod_lt row (by omega : 0 < 2)
    have e2 := Nat.mod_lt col (by omega : 0 < 2)
    generalize row / 2 = A at *
    generalize col / 2 = B at *
    generalize row % 2 = e at *
    generalize col % 2 = f at *
    subst hp hrow hcol
    simp only [List.mem_cons, List.not_mem_nil, or_false]
    have : e = 0 ∨ e = 1 := by omega
    have : f = 0 ∨ f = 1 := by omega
    rcases ‹e = 0 ∨ e = 1› with rfl | rfl <;> rcases ‹f = 0 ∨ f = 1› with rfl | rfl
    · left; ring
    · right; left; ring
    · right; right; left; ring
    · right; right; right; ring

/-- The chroma pair of a pixel is the one its block reads (R29, R57). -/
theorem chromaAddr_eq (a n p : Nat) : chromaAddr (2 * a) n p = n + blockK (blockOfPixel (2 * a) p) := by
  have h : 2 * a / 2 = a := by omega
  unfold chromaAddr blockK blockOfPixel
  rw [h]; ring

/-- A pixel of the frame belongs to one of its blocks. -/
theorem blockOfPixel_lt {a b p : Nat} (ha : 0 < a) (h : p < 4 * (a * b)) : blockOfPixel (2 * a) p < a * b := by
  unfold blockOfPixel
  have h2 : 2 * a/2 = a := by omega
  rw [h2]
  have : p / (2 * a) < 2 * b := by rw [Nat.div_lt_iff_lt_mul (by omega)]; nlinarith
  have h3 : p / (2 * a) / 2 + 1 ≤ b := by omega
  have := Nat.mod_lt p (by omega : 0 < 2 * a)
  have h4 := Nat.mul_le_mul_right a h3
  rw [Nat.add_mul] at h4
  rw [Nat.mul_comm a b]; omega

/-- PIX after the four writes of a block step, word by word (R53). -/
theorem pixStored_writeBlock (b : Buffer 32) (i w : Nat) (hw : 2 ≤ w) (c₁ c₂ c₃ c₄ : Pixel) (p : Nat) :
    pixStored { b with cells := Memory.writeAll b.cells ((blockAddrs w i).zip [c₁, c₂, c₃, c₄]) } p =
      if p = i then c₁ else if p = i + 1 then c₂ else if p = i + w then c₃ else if p = i + w + 1 then c₄
      else pixStored b p := by
  unfold pixStored blockAddrs
  simp only [List.zip_cons_cons, List.zip_nil_right, Memory.writeAll_cons, Memory.writeAll_nil, Memory.read_write]
  by_cases h₁ : p = i
  · subst h₁; rw [if_neg (by omega), if_neg (by omega), if_neg (by omega)]; simp
  · by_cases h₂ : p = i + 1
    · subst h₂; rw [if_neg (by omega), if_neg (by omega)]; simp
    · by_cases h₃ : p = i + w
      · subst h₃; rw [if_neg (by omega), if_pos rfl, if_neg h₁, if_neg h₂, if_pos rfl]; rfl
      · by_cases h₄ : p = i + w + 1
        · subst h₄; rw [if_pos rfl, if_neg h₁, if_neg h₂, if_neg h₃, if_pos rfl]; rfl
        · simp [h₁, h₂, h₃, h₄]

end Sys2Proof.Machine
end

