-- ==== Sys2Proof/Laws/HostInterface.lean ====
section
/-! SUPPORT. Everything a turn can do: one lemma per operation of the host interface, of the form "if it answers a next
state, then …". -/

namespace Sys2Proof.Machine

/-- What a write to CMD can do (R47, R72): the word selects a command, or it selects nothing and nothing happens. -/
theorem commandWrite_cases (d : CommandWord) (s : State) :
    (∃ i, decode d = .ok i ∧ commandWrite d s = exec i s) ∨
      ((∃ e, decode d = .error e) ∧ commandWrite d s = .next s) := by
  unfold commandWrite
  cases h : decode d with
  | ok i => exact .inl ⟨i, rfl, rfl⟩
  | error e => exact .inr ⟨⟨e, rfl⟩, rfl⟩

/-- Everything a HostWrite can do (R72, R74). -/
theorem hostWrite_cases (r : Nat) (d : HostWord) (s : State) :
    (s.state = .busy ∧ hostWrite r d s = .next s) ∨
    (s.state ≠ .busy ∧
      ((r = 0 ∧ hostWrite r d s = commandWrite d s) ∨
       (r = 2 ∧ hostWrite r d s = .next { s with width := low16 d }) ∨
       (r = 3 ∧ hostWrite r d s = .next { s with height := low16 d }) ∨
       (r = 4 ∧ hostWrite r d s = .next { s with frameLen := d }) ∨
       (r = 5 ∧ hostWrite r d s = .next { s with outCap := d }) ∨
       (r = 8 ∧ hostWrite r d s = .next { s with opy := low16 d }) ∨
       (r = 9 ∧ hostWrite r d s = .next { s with opu := low16 d }) ∨
       (r = 10 ∧ hostWrite r d s = .next { s with opv := low16 d }) ∨
       ((r ∉ [0, 2, 3, 4, 5, 8, 9, 10]) ∧ hostWrite r d s = .next s))) := by
  by_cases h : s.state = .busy
  · exact .inl ⟨h, by simp [hostWrite, h]⟩
  · refine .inr ⟨h, ?_⟩
    unfold hostWrite
    rw [if_neg h]
    split <;> simp_all

/-- What DECODE can do (R50). -/
theorem execDecode_cases (s : State) :
    (s.state = .busy ∧ execDecode s = .next s) ∨
      (s.state ≠ .busy ∧ (∃ e, validate s = some e ∧ execDecode s = .next (s.beginDecode.raise e))) ∨
      (s.state ≠ .busy ∧ validate s = none ∧ execDecode s = .next (s.beginDecode.enterBusy.withPixFrame (some s.frameN))) := by
  unfold execDecode
  by_cases h : s.state = .busy
  · simp [h]
  · cases hv : validate s <;> simp [h, hv]

/-- If HOST's byte is placed, FRAME holds it and the old byte may have been recorded. -/
theorem hostPutByte_next {a : Nat} {b : Byte} {s t : State} (h : hostPutByte a b s = .next t) :
    a < s.frame.size ∧ t = (s.recordChange a).withFrame (s.frame.store a b) := by
  unfold hostPutByte at h
  split at h
  · rename_i ha; exact ⟨ha, by injection h with h; exact h.symm⟩
  · cases h

theorem hostGetByte_next {a : Nat} {s t : State} (h : hostGetByte a s = .next t) :
    a < s.frame.size ∧ t = s.withHostData ((frameStored s.frame a).setWidth 32) := by
  unfold hostGetByte at h
  split at h
  · rename_i ha; exact ⟨ha, by injection h with h; exact h.symm⟩
  · cases h

theorem hostPutPixel_next {p : Nat} {v : Pixel} {s t : State} (h : hostPutPixel p v s = .next t) :
    s.state ≠ .busy ∧ p < s.pix.size ∧ t = s.withPix (s.pix.store p v) := by
  unfold hostPutPixel at h
  split at h
  · cases h
  · rename_i hb
    split at h
    · rename_i hp; exact ⟨hb, hp, by injection h with h; exact h.symm⟩
    · cases h

theorem hostGetPixel_next {p : Nat} {s t : State} (h : hostGetPixel p s = .next t) :
    p < s.pixEnd ∧
      ((s.state = .busy ∧ t = (s.withHostData ((s.unsettledPixel p).getD (Config.unwrittenPixel s.pix.tag p))).drawn) ∨
       (s.state ≠ .busy ∧ t = s.withHostData (pixStored s.pix p))) := by
  unfold hostGetPixel at h
  split at h
  · rename_i hp
    refine ⟨hp, ?_⟩
    split at h
    · rename_i hb; exact .inl ⟨hb, by injection h with h; exact h.symm⟩
    · rename_i hb; exact .inr ⟨hb, by injection h with h; exact h.symm⟩
  · cases h

theorem hostBindFrame_next {n : Nat} {known : List (Nat × Byte)} {s t : State}
    (h : hostBindFrame n known s = .next t) :
    s.state ≠ .busy ∧ t = (s.withFrame (boundBuffer 8 n (s.draws + 1) known)).drawn := by
  unfold hostBindFrame at h
  split at h
  · cases h
  · rename_i hb; exact ⟨hb, by injection h with h; exact h.symm⟩

theorem hostBindPix_next {n : Nat} {known : List (Nat × Pixel)} {s t : State}
    (h : hostBindPix n known s = .next t) :
    s.state ≠ .busy ∧ t = ((s.withPix (boundBuffer 32 n (s.draws + 1) known)).withPixFrame none).drawn := by
  unfold hostBindPix at h
  split at h
  · cases h
  · rename_i hb; exact ⟨hb, by injection h with h; exact h.symm⟩

/-- Everything a turn of HOST can do (R76): one alternative per transaction. -/
theorem hostTurn_next {op : HostOp} {s t : State} (h : hostTurn op s = .next t) :
    (∃ r d, op = .write r d ∧ hostWrite r d s = .next t) ∨
    (∃ r, op = .read r ∧ t = s.withHostData (readReg r s)) ∨
    (∃ a b, op = .putByte a b ∧ a < s.frame.size ∧
      t = (s.recordChange a).withFrame (s.frame.store a b)) ∨
    (∃ a, op = .getByte a ∧ a < s.frame.size ∧ t = s.withHostData ((frameStored s.frame a).setWidth 32)) ∨
    (∃ p v, op = .putPixel p v ∧ s.state ≠ .busy ∧ p < s.pix.size ∧ t = s.withPix (s.pix.store p v)) ∨
    (∃ p, op = .getPixel p ∧ p < s.pixEnd ∧ ∃ x, t = s.withHostData x ∨ t = (s.withHostData x).drawn) ∨
    (∃ n known, op = .bindFrame n known ∧ s.state ≠ .busy ∧
      t = (s.withFrame (boundBuffer 8 n (s.draws + 1) known)).drawn) ∨
    (∃ n known, op = .bindPix n known ∧ s.state ≠ .busy ∧
      t = ((s.withPix (boundBuffer 32 n (s.draws + 1) known)).withPixFrame none).drawn) := by
  cases op with
  | write r d => exact .inl ⟨r, d, rfl, h⟩
  | read r => exact .inr (.inl ⟨r, rfl, by injection h with h; exact h.symm⟩)
  | putByte a b =>
    obtain ⟨h₁, h₂⟩ := hostPutByte_next h
    exact .inr (.inr (.inl ⟨a, b, rfl, h₁, h₂⟩))
  | getByte a =>
    obtain ⟨h₁, h₂⟩ := hostGetByte_next h
    exact .inr (.inr (.inr (.inl ⟨a, rfl, h₁, h₂⟩)))
  | putPixel p v =>
    obtain ⟨h₁, h₂, h₃⟩ := hostPutPixel_next h
    exact .inr (.inr (.inr (.inr (.inl ⟨p, v, rfl, h₁, h₂, h₃⟩))))
  | getPixel p =>
    obtain ⟨h₁, h₂⟩ := hostGetPixel_next h
    refine .inr (.inr (.inr (.inr (.inr (.inl ⟨p, rfl, h₁, ?_⟩)))))
    rcases h₂ with ⟨-, h₂⟩ | ⟨-, h₂⟩
    · exact ⟨_, .inr h₂⟩
    · exact ⟨_, .inl h₂⟩
  | bindFrame n known =>
    obtain ⟨h₁, h₂⟩ := hostBindFrame_next h
    exact .inr (.inr (.inr (.inr (.inr (.inr (.inl ⟨n, known, rfl, h₁, h₂⟩))))))
  | bindPix n known =>
    obtain ⟨h₁, h₂⟩ := hostBindPix_next h
    exact .inr (.inr (.inr (.inr (.inr (.inr (.inr ⟨n, known, rfl, h₁, h₂⟩))))))

/-- Everything a turn of CORE can do (R10, R53). -/
theorem coreTurn_next {s t : State} (h : coreTurn s = .next t) :
    (s.state = .busy ∧ (∀ p ∈ blockAddrs s.frameW s.i.toNat, p < s.pix.size) ∧
      t = (s.storePixels s.blockPixels).drawn.advance.finishIfDone) ∨ (s.state ≠ .busy ∧ t = s) := by
  unfold coreTurn at h
  split at h
  · rename_i hb; exact .inl ⟨hb, blockStep_next h⟩
  · rename_i hb; exact .inr ⟨hb, by injection h with h; exact h.symm⟩

/-- Everything a step can do (R76): with no turn listed, or a turn of CORE listed, CORE moves; else HOST does, or a
reset happens. -/
theorem step_next {s t : State} (h : step s = .next t) :
    (s.turns = [] ∧ coreTurn s = .next t) ∨
    (∃ rest, s.turns = .core :: rest ∧ coreTurn (s.withTurns rest) = .next t) ∨
    (∃ op rest, s.turns = .host op :: rest ∧ hostTurn op (s.withTurns rest) = .next t) ∨
    (∃ rest, s.turns = .reset :: rest ∧ t = resetTurn (s.withTurns rest)) := by
  unfold step at h
  split at h
  · rename_i ht; exact .inl ⟨ht, h⟩
  · rename_i c rest ht
    cases c with
    | core => exact .inr (.inl ⟨rest, ht, h⟩)
    | host op => exact .inr (.inr (.inl ⟨op, rest, ht, h⟩))
    | reset => exact .inr (.inr (.inr ⟨rest, ht, by injection h with h; exact h.symm⟩))

/-- Everything the note of a changed byte can do (R96): nothing outside a decode; else one old byte is kept, and no other
field but the draw counter changes. -/
theorem State.recordChange_cases (s : State) (a : Nat) :
    (s.state ≠ .busy ∧ s.recordChange a = s) ∨
    (s.state = .busy ∧ Memory.read s.stale a = none ∧
      s.recordChange a = s.withStale (Memory.write s.stale a (frameStored s.frame a))) ∨
    (s.state = .busy ∧ ∃ old x, Memory.read s.stale a = some old ∧ (x = frameStored s.frame a ∨ x = old) ∧
      s.recordChange a = (s.withStale (Memory.write s.stale a x)).drawn) := by
  unfold State.recordChange
  split
  · rename_i hb
    split
    · rename_i h; exact .inr (.inl ⟨hb, h, rfl⟩)
    · rename_i old h
      refine .inr (.inr ⟨hb, old, _, h, ?_, rfl⟩)
      split
      · exact .inl rfl
      · exact .inr rfl
  · rename_i hb; exact .inl ⟨hb, rfl⟩

/-- No index HOST may read lies beyond the buffer (R27). -/
theorem State.pixEnd_le (s : State) : s.pixEnd ≤ s.pix.size := by
  unfold State.pixEnd; split
  · exact le_rfl
  · exact Nat.min_le_right _ _

/-- No index HOST may read lies at or beyond the N of the decode whose result PIX holds (R100). -/
theorem State.pixEnd_le_of_pixFrame {s : State} {n : Nat} (h : s.pixFrame = some n) : s.pixEnd ≤ n := by
  unfold State.pixEnd; rw [h]; exact Nat.min_le_left _ _

/-- PIX is left in canonical form by a reset. -/
theorem State.pixAfterReset_wf {s : State} (h : s.pix.wf) : s.pixAfterReset.wf := by
  unfold State.pixAfterReset
  split
  · refine ⟨Memory.wf_putRange h.1 _ _, fun c hc => ?_⟩
    rcases Memory.mem_putRange hc with hc | hc
    · exact h.2 c hc
    · exact lt_of_lt_of_le hc (Nat.min_le_right _ _)
  · exact h

end Sys2Proof.Machine
end

