-- ==== Sys2Proof/Laws/PerInstr.lean ====
section
/-! SUPPORT. What holds of every command, one lemma per constructor of Instr. -/

namespace Sys2Proof

/-- A command is well formed, its word passes the checks of CMDW, and the decoder reads it back (R43, R44). -/
def Laws.Codec.Statement (i : Instr) : Prop := i.wf = true ∧ (cmdFields (encode i)).wf = true ∧ decode (encode i) = .ok i

theorem Laws.Codec.decode : Laws.Codec.Statement .decode := ⟨rfl, by decide, by decide⟩

theorem Laws.Codec.xform : Laws.Codec.Statement .xform := ⟨rfl, by decide, by decide⟩

end Sys2Proof
end

