-- ==== Sys2Proof/Laws/Safety.lean ====
section
/-! SUPPORT. Lemmas about runs, and about carrying the legal states over an update. -/

namespace Sys2Proof.Machine

theorem Memory.wf_nil {w : Nat} : Memory.wf ([] : Memory w) := by simp [Memory.wf]

/-- A run of CORE's turns, taken apart at its last. -/
theorem coreSteps_succ (n : Nat) (s : State) :
    coreSteps (n + 1) s =
      match coreSteps n s with
      | .next t => coreTurn t
      | .fault f => .fault f
      | .refused r => .refused r := by
  induction n generalizing s with
  | zero =>
    simp only [coreSteps]
    cases coreTurn s <;> rfl
  | succ n ih =>
    rw [coreSteps]
    cases h : coreTurn s with
    | next t => simp only [ih t]; rw [coreSteps, h]
    | fault f => rw [coreSteps, h]
    | refused r => rw [coreSteps, h]

/-- With no turn listed, a step is a turn of CORE. -/
theorem step_of_no_turns {s : State} (h : s.turns = []) : step s = coreTurn s := by
  unfold step; rw [h]

/-- With no turn listed, a run is a run of CORE's turns. -/
theorem steps_of_no_turns (n : Nat) (s : State) (h : s.turns = []) : steps n s = coreSteps n s := by
  induction n generalizing s with
  | zero => rfl
  | succ n ih =>
    rw [steps, coreSteps, step_of_no_turns h]
    cases hc : coreTurn s with
    | next t =>
      refine ih t ?_
      rcases coreTurn_next hc with ⟨-, -, rfl⟩ | ⟨-, rfl⟩
      · simpa using h
      · exact h
    | fault f => rfl
    | refused r => rfl

/-- A legal state stays legal where STATUS, I, K and PIXOUT stay, the memories keep their form, a running decode keeps
its parameters and a decode that is over is not remembered. -/
theorem State.Inv.of_same_status {s t : State} (h : s.Inv) (hm : t.memoriesWf) (hst : t.state = s.state)
    (he : t.err = s.err) (hi : t.i = s.i) (hk : t.k = s.k) (hp : t.pixout = s.pixout)
    (hv : s.state = .busy → validate t = validate s ∧ t.frameN = s.frameN ∧ t.frameW = s.frameW)
    (hr : s.state ≠ .busy → t.stale = s.stale ∧ t.pixOld = s.pixOld)
    (hf : t.pixFrame = s.pixFrame ∨ (s.state ≠ .busy ∧ t.pixFrame = none)) : t.Inv := by
  refine ⟨hm, ?_, ?_, ?_, ?_, ?_⟩
  · have := h.err
    unfold State.errOnlyInFault at *
    rw [hst, he]; exact this
  · have := h.indices
    unfold State.indicesLegal at *
    rw [hst]
    cases hs : s.state <;> simp only [hs] at this ⊢
    · rw [hi, hk]; exact this
    · obtain ⟨h₁, h₂, h₃⟩ := hv hs
      rw [hi, hk, h₂, h₃]
      unfold State.valid at *
      rw [h₁]; exact this
    · rw [hi, hk]; exact this
    · rw [hi, hk]; exact this
  · have := h.pixout
    unfold State.pixoutLegal at *
    rw [hp]; exact this
  · intro hb
    rw [hst] at hb
    obtain ⟨h₁, h₂⟩ := hr hb
    rw [h₁, h₂]; exact h.retained hb
  · obtain ⟨h₁, h₂⟩ := h.pixFrame
    rcases hf with hf | ⟨hb, hf⟩
    · exact ⟨fun hb => by rw [hst] at hb; rw [hf, h₁ hb, (hv hb).2.1], fun hd => by rw [hst] at hd; rw [hf, hi]; exact h₂ hd⟩
    · exact ⟨fun h' => absurd (hst ▸ h') hb, fun _ => .inl hf⟩

end Sys2Proof.Machine
end

