-- ==== Sys2Proof/Tests/Slice0.lean ====
section
/-! SUPPORT. The model's own tests. Expected values are those of spec/95_test_vectors.md and of the rules' worked
examples, named at each test. The second half shows, for every statement with hypotheses, a state and operands that meet
them together. -/

namespace Sys2Proof.Tests

open Sys2Proof.Machine

/-- Whether an outcome is a next state of which `p` holds. -/
def nextHas (o : Host.Outcome State Fault Refusal) (p : State → Bool) : Bool :=
  match o with
  | .next t => p t
  | .fault _ => false
  | .refused _ => false

/-- A FRAME buffer that holds exactly the given bytes. -/
def frameOf (bs : List Byte) : Buffer 8 where
  size := bs.length
  tag := 0
  cells := (bs.zipIdx).map fun x => (x.2, x.1)

/-- A PIX buffer of `n` words of which nothing is known. -/
def pixOf (n : Nat) : Buffer 32 where
  size := n
  tag := 0
  cells := []

/-- The start of program P1: a 2×2 frame, the parameters written, IDLE. -/
def small : State :=
  { State.reset with
    width := 2#16, height := 2#16, frameLen := 6#32, outCap := 4#32
    frame := frameOf [0x10#8, 0x50#8, 0x90#8, 0xEB#8, 0xF0#8, 0x5A#8], pix := pixOf 4 }

/-- The same core, its DECODE accepted. -/
def smallBusy : State := small.beginDecode.enterBusy.withPixFrame (some 4)

/-- The same core, its DECODE done. -/
def smallDone : State := (smallBusy.storePixels smallBusy.blockPixels).drawn.advance.finishIfDone

/-- A core whose DECODE has failed: WIDTH is 3. -/
def smallFault : State := ({ small with width := 3#16 } : State).beginDecode.raise .invalidDimensions

/-- A 4×2 frame, its DECODE accepted: the first of its two blocks ends no block row. -/
def wideBusy : State :=
  { smallBusy with width := 4#16, frameLen := 12#32, outCap := 8#32, frame := frameOf (List.replicate 12 0#8)
                   pix := pixOf 8, pixFrame := some 8 }

/-- `small` with one turn listed. -/
def smallThen (t : Turn) : State := small.withTurns [t]

/-- `smallBusy` with one turn listed. -/
def busyThen (t : Turn) : State := smallBusy.withTurns [t]

/-! The command word: spec/30_encoding.md R43, R44, R47. -/

/-- R43: a word whose field ZERO is not zero is ill formed (program P6, line 3). -/
theorem test_wf_refuses_zero_field :
    (cmdFields 0x00000101#32).zeroOk = false ∧ (cmdFields 0x00000101#32).opOk = true ∧
      (cmdFields 0x00000101#32).wf = false := by decide

/-- R44: a word whose operation code is no command's is ill formed (program P6, lines 1 and 2). -/
theorem test_wf_refuses_op :
    (cmdFields 0x00000003#32).opOk = false ∧ (cmdFields 0x00000003#32).zeroOk = true ∧
      (cmdFields 0x00000003#32).wf = false ∧ (cmdFields 0x00000000#32).wf = false := by decide

/-- R44: the word of DECODE, written out bit by bit. -/
theorem test_decode_word_decode : decode 0b00000000000000000000000000000001#32 = .ok .decode := by rfl

/-- R44: the word of XFORM, written out bit by bit. -/
theorem test_decode_word_xform : decode 0b00000000000000000000000000000010#32 = .ok .xform := by rfl

/-- R47: reserved words are refused by name. -/
theorem test_decode_refuses :
    decode 0b00000000000000000000000100000001#32 = .error .zeroFieldSet ∧
      decode 0b00000000000000000000000000000011#32 = .error .reservedOp ∧
      decode 0b00000000000000000000000000000000#32 = .error .reservedOp :=
  ⟨rfl, rfl, rfl⟩

/-- R11, R43: the word placed where the next step takes a command from runs as that command. -/
theorem test_withFetchWord_runs :
    nextHas (step (State.reset.withFetchWord 32 2)) (fun t => t.pixout == 0xFF000000#32) = true ∧
      nextHas (step (State.reset.withFetchWord 32 1)) (fun t => t.statusWord == 0x00000007#32) = true := by decide

/-! The commands: one step each. -/

/-- XFORM of OPY=300, OPU=0, OPV=-128: R65 corner case (a), vector V-X34. -/
theorem test_xform_out_of_domain :
    nextHas (exec .xform { State.reset with opy := 300#16, opu := 0#16, opv := 0xFF80#16 })
      (fun t => t.pixout == 0xFF4AFFFF#32 && t.statusWord == 0#32) = true := by decide

/-- XFORM of OPY=100, OPU=-1, OPV=-1: program P5, line 24: truncation toward zero. -/
theorem test_xform_truncates :
    nextHas (exec .xform { State.reset with opy := 100#16, opu := 0xFFFF#16, opv := 0xFFFF#16 })
      (fun t => t.pixout == 0xFF636563#32) = true := by decide

/-- DECODE of the 2×2 frame is accepted (R50, worked example). -/
theorem test_decode_accepts :
    nextHas (exec .decode small) (fun t => t.statusWord == 1#32 && t.i == 0#32 && t.k == 0#32) = true := by decide

/-- DECODE of a buffer without chroma plane: R51's worked example, BufferTooSmall; and the priority of R84. -/
theorem test_decode_faults :
    nextHas (exec .decode { small with width := 4#16, height := 4#16, frameLen := 16#32, outCap := 16#32 })
        (fun t => t.statusWord == 0xB#32) = true ∧
      nextHas (exec .decode { small with width := 3#16, height := 4#16, frameLen := 0#32, outCap := 0#32 })
        (fun t => t.statusWord == 0x7#32) = true := by decide

/-- The one block step of program P1: four words, I=4, K=2, DONE. -/
theorem test_blockStep_P1 :
    nextHas (step smallBusy) (fun t =>
      pixStored t.pix 0 == 0xFFD60500#32 && pixStored t.pix 1 == 0xFFFF451B#32 && pixStored t.pix 2 == 0xFFFF855B#32 &&
        pixStored t.pix 3 == 0xFFFFE0B6#32 && t.i == 4#32 && t.k == 2#32 && t.statusWord == 2#32) = true := by decide

/-- The worked example of R53: program P2, step 1, W=H=4, I=K=2. -/
theorem test_blockStep_P2 :
    nextHas (blockStep { State.reset with
        state := .busy, width := 4#16, height := 4#16, i := 2#32, k := 2#32, pix := pixOf 16
        frame := frameOf [0#8, 0#8, 32#8, 48#8, 0#8, 0#8, 96#8, 112#8, 0#8, 0#8, 0#8, 0#8, 0#8, 0#8, 0#8, 0#8,
          0#8, 0#8, 255#8, 0#8, 0#8, 0#8, 0#8, 0#8] })
      (fun t => pixStored t.pix 2 == 0xFFFF4F00#32 && pixStored t.pix 3 == 0xFFFF5F00#32 &&
        pixStored t.pix 6 == 0xFFFF8F00#32 && pixStored t.pix 7 == 0xFFFF9F00#32 && t.i == 8#32 && t.k == 4#32 &&
        t.statusWord == 1#32) = true := by decide

/-- R49: `WR WIDTH, 40000` stores 0x9C40, which a read returns sign-extended. -/
theorem test_width_is_signed :
    nextHas (steps 2 (State.reset.withTurns [.host (.write 2 40000#32), .host (.read 2)]))
      (fun t => t.width == 0x9C40#16 && t.hostData == 0xFFFF9C40#32) = true := by decide

/-- R92: reset in the middle of a decode. -/
theorem test_reset_while_busy :
    nextHas (step (busyThen .reset)) (fun t => t.statusWord == 0#32 && t.width == 0#16 && t.i == 0#32) = true := by
  decide

/-- R94: a frame placed in a buffer before it is bound is the frame that is decoded (program P1's first pixel). -/
theorem test_filled_buffer_is_decoded :
    nextHas (steps 3 (State.reset.withTurns [.host (.bindPix 4 []),
        .host (.bindFrame 6 [(0, 0x10#8), (1, 0x50#8), (2, 0x90#8), (3, 0xEB#8), (4, 0xF0#8), (5, 0x5A#8)]),
        .host (.getByte 4)]))
      (fun t => t.hostData == 0xF0#32 && t.frame.size == 6 &&
        nextHas (decodeRun { t with width := 2#16, height := 2#16, frameLen := 6#32, outCap := 4#32 })
          (fun u => pixStored u.pix 0 == 0xFFD60500#32 && u.statusWord == 2#32)) = true := by decide

/-! Witnesses: the hypotheses of the statements can be met together. -/

theorem test_witness_CommandMapIsExact :
    (0x00000000#32 ≠ 0x00000001#32 ∧ 0x00000000#32 ≠ 0x00000002#32) ∧
      (0x00000003#32 ≠ 0x00000001#32 ∧ 0x00000003#32 ≠ 0x00000002#32) ∧
      (0xFFFFFFFF#32 ≠ 0x00000001#32 ∧ 0xFFFFFFFF#32 ≠ 0x00000002#32) := by decide

theorem test_witness_DecodeAndEncodeAgree :
    Instr.wf .decode = true ∧ Instr.wf .xform = true ∧ decode 2#32 = .ok .xform := ⟨rfl, rfl, rfl⟩

theorem test_witness_ReservedCommandsAreIgnored :
    (3#32 : CommandWord) ≠ 1#32 ∧ (3#32 : CommandWord) ≠ 2#32 ∧
      (smallThen (.host (.write 0 3#32))).turns = [.host (.write 0 3#32)] := by decide

theorem test_witness_StepRunsTheCommandWritten :
    (smallThen (.host (.write 0 1#32))).turns = [.host (.write 0 1#32)] ∧ decode 1#32 = .ok .decode ∧
      (smallThen (.host (.write 0 2#32))).turns = [.host (.write 0 2#32)] ∧ decode 2#32 = .ok .xform :=
  ⟨rfl, rfl, rfl, rfl⟩

theorem test_witness_CoreMovesOnlyWhileBusy :
    (smallBusy.turns = [] ∧ smallBusy.state = .busy) ∧ (small.turns = [] ∧ small.state ≠ .busy) ∧
      ((busyThen .core).turns = [.core] ∧ (busyThen .core).state = .busy) ∧
      ((smallThen .core).turns = [.core] ∧ (smallThen .core).state ≠ .busy) := by decide

theorem test_witness_TruncatingDivisionRoundsTowardZero :
    0 < 1000 ∧ (0 : Int) ≤ 0 ∧ (-1 : Int) < 0 ∧ tq 1772 1000 = 1 ∧ tq (-1772) 1000 = -1 ∧ tq (-999) 1000 = 0 := by decide

theorem test_witness_ClampSaturates :
    (-1 : Int) < 0 ∧ (255 : Int) < 256 ∧ (0 : Int) ≤ 0 ∧ (0 : Int) ≤ 255 ∧ (255 : Int) ≤ 255 ∧
      clamp8 (-1) = 0 ∧ clamp8 0 = 0 ∧ clamp8 255 = 255 ∧ clamp8 256 = 255 := by decide

/-- The corners of the nominal domain, with R61's values. -/
theorem test_witness_ChromaTermsAreExactAndOdd :
    (∀ x ∈ [(-128 : Int), 127], -128 ≤ x ∧ x ≤ 127) ∧ chromaTerms (-128) (-128) = ⟨-226, -135, -179⟩ ∧
      chromaTerms 127 127 = ⟨225, 134, 178⟩ := by decide

/-- The corners of the nominal domain, with R62's values. -/
theorem test_witness_ChannelSumsStayInRange :
    (∀ y ∈ [(0 : Int), 255], 0 ≤ y ∧ y ≤ 255) ∧ channelSums 0 (chromaTerms (-128) (-128)) = ⟨-226, 135, -179⟩ ∧
      channelSums 255 (chromaTerms 127 127) = ⟨480, 121, 433⟩ := by decide

theorem test_witness_PackFieldsDoNotOverlap :
    255 ≤ 255 ∧ 121 ≤ 255 ∧ 0 ≤ 255 ∧ pack 255 121 255 = 0xFFFF79FF#32 := by decide

theorem test_witness_TransformProperties : (0 : Int) ≤ 0 ∧ (-5 : Int) ≤ 300 := by decide

theorem test_witness_DivisionByAThousandIsMultiplyAndShift : 0 ≤ 226816 ∧ 226816 ≤ 226816 :=
  ⟨Nat.zero_le _, Nat.le_refl _⟩

theorem test_witness_XformWritesPixoutAlone : smallBusy.state = .busy ∧ small.state ≠ .busy := by decide

theorem test_witness_OnlyXformAndResetWritePixout :
    nextHas (step (smallThen (.host (.write 0 2#32)))) (fun t => t.pixout != small.pixout) = true ∧
      nextHas (step smallBusy) (fun t => t.pixout == small.pixout) = true := by decide

theorem test_witness_DecodeStartsOnValidRegisters :
    ∀ s ∈ [small, smallDone, { smallFault with width := 2#16 }],
      s.state ≠ .busy ∧ s.legalDims ∧ s.frameLongEnough ∧ s.capacityExact := by decide

/-- One state on each side of each of the three conditions, at the boundary: for InvalidDimensionsExactly,
BufferTooSmallExactly, OutputSizeMismatchExactly and FaultEntryWritesStatusAlone. -/
theorem test_witness_the_three_faults :
    (∀ s ∈ [{ small with width := 0#16 }, { small with height := 0x8000#16 }, { small with height := 3#16 }],
      s.state ≠ .busy ∧ validate s = some .invalidDimensions) ∧
    (small.state ≠ .busy ∧ small.legalDims ∧ validate { small with frameLen := 5#32 } = some .bufferTooSmall) ∧
    (∀ s ∈ [{ small with outCap := 3#32 }, { small with outCap := 5#32 }],
      s.state ≠ .busy ∧ validate s = some .outputSizeMismatch) ∧
    validate small = none := by decide

theorem test_witness_DecodeForgetsThePreviousOutcome :
    smallFault.state ≠ .busy ∧ CoreState.done ≠ .busy ∧ CoreState.idle ≠ .busy := by decide

theorem test_witness_DecodeWhileBusyDoesNothing : smallBusy.state = .busy := by decide

theorem test_witness_LegalSizesFitTheIndexRegisters :
    ({ small with width := 32766#16, height := 32766#16 } : State).legalDims ∧ small.legalDims := by decide

theorem test_witness_HostReadReturnsTheRegister :
    ∀ r ≤ 12, (busyThen (.host (.read r))).turns = .host (.read r) :: [] := fun _ _ => rfl

theorem test_witness_HostWriteStoresTheRegister :
    ∀ r ≤ 12, ∀ d : HostWord,
      (smallThen (.host (.write r d))).turns = .host (.write r d) :: [] ∧ (smallThen (.host (.write r d))).state ≠ .busy ∧
      (busyThen (.host (.write r d))).turns = .host (.write r d) :: [] ∧ (busyThen (.host (.write r d))).state = .busy :=
  fun _ _ _ => ⟨rfl, nofun, rfl, rfl⟩

theorem test_witness_WriteThenReadKeepsTheWidth :
    ∀ r ∈ [2, 3, 8, 9, 10, 4, 5],
      (small.withTurns [.host (.write r 0x10002#32), .host (.read r)]).state ≠ .busy ∧
      (small.withTurns [.host (.write r 0x10002#32), .host (.read r)]).turns =
        .host (.write r 0x10002#32) :: .host (.read r) :: [] := by decide

theorem test_witness_ParametersAreConstantWhileBusy :
    (busyThen (.host (.write 2 9#32))).state = .busy ∧ (busyThen (.host (.read 1))).state = .busy ∧
      (∀ rest, (busyThen (.host (.write 2 9#32))).turns ≠ .reset :: rest) ∧
      nextHas (step (busyThen (.host (.write 2 9#32)))) (fun _ => true) = true ∧
      (smallThen (.host (.write 2 9#32))).state ≠ .busy :=
  ⟨rfl, rfl, fun _ h => (by cases h), rfl, fun h => (by cases h)⟩

/-- Every one of the seven registers is written by its own number. -/
theorem test_witness_ParametersAreWrittenByHostAlone :
    ∀ r ∈ [2, 3, 4, 5, 8, 9, 10], nextHas (step (smallThen (.host (.write r 0x77#32))))
      (fun t => (readReg r t == 0x77#32) && !(readReg r small == 0x77#32)) = true := by decide

/-- A legal state that is BUSY: the 2×2 decode just accepted, its one block step to come. For
BlockAddressesAreInBounds, BlockStepWritesItsFourPixels and StatusWordFields. -/
theorem test_witness_legal_busy :
    smallBusy.Inv ∧ smallBusy.state = .busy ∧ smallBusy.truthful ∧ smallBusy.frameStable :=
  ⟨⟨by decide, by decide, ⟨by decide, 0, by decide, by decide, by decide⟩, by decide, by decide, by decide⟩, by decide, by decide,
    fun _ => rfl⟩

/-- Legal states in the three other values of STATE: for StatusWordFields and EveryStepKeepsTheStateLegal. -/
theorem test_witness_legal_idle_done_fault : small.Inv ∧ smallDone.Inv ∧ smallFault.Inv :=
  ⟨⟨by decide, by decide, ⟨by decide, by decide⟩, by decide, by decide, by decide⟩,
    ⟨by decide, by decide, ⟨by decide, by decide, by decide⟩, by decide, by decide, by decide⟩,
    ⟨by decide, by decide, ⟨by decide, by decide⟩, by decide, by decide, by decide⟩⟩

/-- Every way a step can write STATUS occurs. -/
theorem test_witness_StatusIsWrittenByCoreAlone :
    nextHas (step (smallThen .reset)) (fun t => t.state == .idle) = true ∧
      nextHas (step (smallThen (.host (.write 0 1#32)))) (fun t => t.state == .busy) = true ∧
      nextHas (step (({ small with width := 3#16 } : State).withTurns [.host (.write 0 1#32)]))
        (fun t => t.state == .fault) = true ∧
      nextHas (step smallBusy) (fun t => t.state == .done) = true := by decide

theorem test_witness_FaultIsLeftByDecodeOrReset :
    smallFault.state = .fault ∧
      nextHas (step (smallFault.withTurns [.host (.write 0 2#32)])) (fun t => t.state == .fault) = true ∧
      nextHas (step (smallFault.withTurns [.reset])) (fun t => t.state == .idle) = true := by decide

/-- Both of Advance's cases, in legal states: the end of a block row (W = 2), and inside one (W = 4). -/
theorem test_witness_AdvanceMovesToTheNextBlock :
    ((smallBusy.i.toNat + 2) % smallBusy.frameW = 0 ∧ nextHas (blockStep smallBusy) (fun _ => true) = true) ∧
      ((wideBusy.i.toNat + 2) % wideBusy.frameW ≠ 0 ∧ nextHas (blockStep wideBusy) (fun _ => true) = true) ∧
      smallBusy.Inv ∧ wideBusy.Inv ∧ wideBusy.state = .busy :=
  ⟨by decide, by decide, test_witness_legal_busy.1,
    ⟨by decide, by decide, ⟨by decide, 0, by decide, by decide, by decide⟩, by decide, by decide, by decide⟩, rfl⟩

theorem test_witness_BlockStepStopsOnlyOutsidePix :
    (∃ a ∈ blockAddrs smallBusy.frameW smallBusy.i.toNat, (smallBusy.withPix (pixOf 3)).pix.size ≤ a) ∧
      ∀ a ∈ blockAddrs smallBusy.frameW smallBusy.i.toNat, a < smallBusy.pix.size := by decide

theorem test_witness_BlockSequenceInClosedForm :
    small.state ≠ .busy ∧ small.valid ∧ small.frameN ≤ small.pix.size ∧ 0 < small.frameN / 4 := by decide

theorem test_witness_BlockStepsAreTheNestedLoop :
    small.state ≠ .busy ∧ small.valid ∧ small.frameN ≤ small.pix.size ∧ exec .decode small = .next smallBusy :=
  ⟨by decide, by decide, by decide, rfl⟩

theorem test_witness_DecodeTouchesEachCellOnce : 0 < 1 ∧ 0 < 16383 := by decide

/-- Each of the four cases of the statement, at its boundary. -/
theorem test_witness_DecodeConvertsTheWholeFrame :
    (small.state ≠ .busy ∧ small.turns = []) ∧ (¬ ({ small with width := 1#16 } : State).legalDims) ∧
      (small.legalDims ∧ ¬ ({ small with frameLen := 5#32 } : State).frameLongEnough) ∧
      (small.frameLongEnough ∧ ¬ ({ small with outCap := 5#32 } : State).capacityExact) ∧
      small.capacityExact ∧ small.truthful := by decide

/-- Two states that agree on the parameters and on the frame, and on nothing else the statement leaves free. -/
theorem test_witness_DecodeDependsOnItsInputsAlone :
    let s' : State := { smallDone with opy := 7#16, pixout := 0xFF123456#32 }
    small.state ≠ .busy ∧ s'.state ≠ .busy ∧ small.turns = [] ∧ s'.turns = [] ∧ small.truthful ∧ s'.truthful ∧
      small.width = s'.width ∧ small.height = s'.height ∧ small.frameLen = s'.frameLen ∧ small.outCap = s'.outCap ∧
      ∀ a, a < small.frameN + small.frameN / 2 → frameStored small.frame a = frameStored s'.frame a :=
  ⟨by decide, by decide, rfl, rfl, by decide, by decide, rfl, rfl, rfl, rfl, fun _ _ => rfl⟩

theorem test_witness_HostReadsDoNotDisturbTheCore :
    ∀ c ∈ [Turn.host (.read 1), .core, .host (.read 6), .core], c.isQuiet = true := by decide

theorem test_witness_ResetInAnyState :
    small.memoriesWf ∧ smallBusy.memoriesWf ∧ (smallThen .reset).turns = [.reset] ∧ (busyThen .reset).turns = [.reset] ∧
      3 < smallBusy.frameN ∧ 3 < smallBusy.pix.size ∧ smallBusy.frameN ≤ 4 ∧ smallBusy.pix.size ≤ 4 := by decide

theorem test_witness_EveryStepKeepsTheStateLegal : smallBusy.Inv ∧ step smallBusy = .next smallDone :=
  ⟨test_witness_legal_busy.1, rfl⟩

theorem test_witness_FrameHoldsWhatHostPut :
    small.state ≠ .busy ∧ 5 < small.frame.size ∧
      (smallThen (.host (.putByte 5 1#8))).turns = [.host (.putByte 5 1#8)] := by decide

theorem test_witness_PixHoldsWhatHostPut :
    small.state ≠ .busy ∧ 3 < small.pix.size ∧ 3 < small.pixEnd ∧
      (smallThen (.host (.putPixel 3 1#32))).turns = [.host (.putPixel 3 1#32)] := by decide

theorem test_witness_ChangedByteIsReadOldOrNew :
    smallBusy.state = .busy ∧ 5 < smallBusy.frame.size ∧ Memory.read smallBusy.stale 5 = none ∧
      (busyThen (.host (.putByte 5 1#8))).turns = [.host (.putByte 5 1#8)] := by decide

/-- Each clause at the edge of its range: index 4 of a 4-word frame in a 5-word buffer, the end of a buffer, the last
index HOST may read in and out of a decode, and, in a state no run reaches, an index beyond N that no frame bounds. -/
theorem test_witness_HostReadsOfPix :
    (smallBusy.withPix (pixOf 5)).pixFrame = some 4 ∧ (small.pix.size ≤ 4 ∧ small.pixFrame = none) ∧
      (3 < small.pixEnd ∧ small.state ≠ .busy) ∧ (3 < smallDone.pixEnd ∧ smallDone.state ≠ .busy) ∧
      (3 < smallBusy.pixEnd ∧ smallBusy.state = .busy ∧ 3 < smallBusy.frameN) ∧
      (4 < ((smallBusy.withPix (pixOf 5)).withPixFrame none).pixEnd ∧ (smallBusy.withPix (pixOf 5)).frameN ≤ 4) ∧
      (smallThen (.host (.getPixel 3))).turns = [.host (.getPixel 3)] := by decide

/-- A PIX of 5 words around a frame of 4 pixels. -/
theorem test_witness_ReadsStayInsideTheDecodedFrame :
    (small.withPix (pixOf 5)).state ≠ .busy ∧ (small.withPix (pixOf 5)).turns = [] ∧ (small.withPix (pixOf 5)).valid ∧
      (small.withPix (pixOf 5)).frameN ≤ (small.withPix (pixOf 5)).pix.size ∧ small.frameN ≤ 4 := by decide

theorem test_witness_BindingBringsWhatHostPlaced :
    small.state ≠ .busy ∧
      (smallThen (.host (.bindFrame 2 [(1, 5#8), (1, 6#8)]))).turns = [.host (.bindFrame 2 [(1, 5#8), (1, 6#8)])] ∧
      [(1, 5#8), (1, 6#8)] = [(1, 5#8)] ++ (1, 6#8) :: [] ∧ (∀ c ∈ ([] : List (Nat × Byte)), c.1 ≠ 1) ∧ 1 < 2 ∧
      (smallThen (.host (.bindPix 2 [(1, 7#32)]))).turns = [.host (.bindPix 2 [(1, 7#32)])] ∧
      [(1, 7#32)] = [] ++ (1, 7#32) :: [] := by decide

theorem test_witness_PreparationsComeInAnyOrder :
    small.state ≠ .busy ∧ (∀ c ∈ [(0, 5#8), (1, 6#8)], c.1 < 2) ∧ (∀ c ∈ [(0, 7#32), (1, 8#32)], c.1 < 2) ∧ 2 ≠ 0 ∧
      3 ≠ 0 ∧ 3 ≠ 2 := by decide

/-- Each clause at the first index that does not exist, or in the state that forbids the access. -/
theorem test_witness_WhereHostTurnsStop :
    small.frame.size ≤ 6 ∧ (smallThen (.host (.putByte 6 0#8))).turns = [.host (.putByte 6 0#8)] ∧
      (smallThen (.host (.getByte 6))).turns = [.host (.getByte 6)] ∧
      (smallThen (.host (.putPixel 4 0#32))).turns = [.host (.putPixel 4 0#32)] ∧ small.pix.size ≤ 4 ∧
      small.state ≠ .busy ∧ (busyThen (.host (.putPixel 0 0#32))).turns = [.host (.putPixel 0 0#32)] ∧
      (busyThen (.host (.bindFrame 6 []))).turns = [.host (.bindFrame 6 [])] ∧
      (busyThen (.host (.bindPix 4 []))).turns = [.host (.bindPix 4 [])] ∧ smallBusy.state = .busy := by decide

theorem test_witness_OnlyHostAccessesStop :
    smallBusy.Inv ∧ (smallBusy.state = .busy → smallBusy.truthful) ∧ smallBusy.turns = [] ∧
      (busyThen .core).turns = [.core] ∧ (busyThen .reset).turns = [.reset] ∧
      (busyThen (.host (.write 0 1#32))).turns = [.host (.write 0 1#32)] ∧
      (busyThen (.host (.read 1))).turns = [.host (.read 1)] :=
  ⟨test_witness_legal_busy.1, by decide, rfl, rfl, rfl, rfl, rfl⟩

end Sys2Proof.Tests
end

