-- ==== Sys2Proof/Proofs/Scope.lean ====
section
/-! PROOFS. The arithmetic of spec/00_scope.md: truncating division (R6) and saturation (R7). -/

namespace Sys2Proof.Machine

theorem tq_eq_natAbs_div_of_nonneg {n : Int} (h : 0 ≤ n) (d : Nat) : tq n d = ((n.natAbs / d : Nat) : Int) :=
  if_pos h

theorem tq_eq_neg_natAbs_div_of_neg {n : Int} (h : n < 0) (d : Nat) : tq n d = -((n.natAbs / d : Nat) : Int) :=
  if_neg h.not_ge

/-- The model's truncating division is the core library's, whose remainder `Int.tmod` has the sign of the dividend. -/
theorem tq_eq_tdiv (n : Int) (d : Nat) : tq n d = n.tdiv d := by
  rcases le_or_gt 0 n with h | h
  · rw [tq_of_nonneg h, Int.tdiv_eq_ediv_of_nonneg h]
  · rw [tq_of_neg h, ← Int.tdiv_eq_ediv_of_nonneg (by omega), Int.neg_tdiv, neg_neg]

theorem sub_mul_tq (n : Int) (d : Nat) : n - d * tq n d = n.tmod d := by
  rw [tq_eq_tdiv, Int.tmod_def]

theorem natAbs_sub_mul_tq_lt (n : Int) {d : Nat} (hd : 0 < d) : (n - d * tq n d).natAbs < d := by
  rw [sub_mul_tq, Int.natAbs_tmod, Int.natAbs_natCast]
  exact Nat.mod_lt _ hd

theorem sub_mul_tq_nonneg {n : Int} (h : 0 ≤ n) (d : Nat) : 0 ≤ n - d * tq n d := by
  rw [sub_mul_tq]
  exact Int.tmod_nonneg _ h

/-- The remainder of a dividend that is not positive, by oddness (R6) from the remainder of its negation. -/
theorem sub_mul_tq_nonpos {n : Int} (h : n ≤ 0) (d : Nat) : n - d * tq n d ≤ 0 := by
  have hneg : 0 ≤ -n - d * tq (-n) d := sub_mul_tq_nonneg (by omega) d
  rw [tq_neg, mul_neg] at hneg
  omega

/-- Settles O7: the two equations are the branches of `tq`, and the remainder is `Int.tmod`. -/
theorem truncatingDivisionRoundsTowardZero : Obligations.TruncatingDivisionRoundsTowardZero := fun n d hd =>
  ⟨fun h => tq_eq_natAbs_div_of_nonneg h d, fun h => tq_eq_neg_natAbs_div_of_neg h d, tq_neg n d,
    natAbs_sub_mul_tq_lt n hd, fun h => sub_mul_tq_nonneg h d, fun h => sub_mul_tq_nonpos h d⟩

theorem clamp8_of_neg {x : Int} (h : x < 0) : clamp8 x = 0 :=
  if_pos h

theorem clamp8_of_gt {x : Int} (h : 255 < x) : clamp8 x = 255 := by
  unfold clamp8
  rw [if_neg (by omega), if_pos h]

/-- Settles O8: one equation for each branch of `clamp8`, and its bound. -/
theorem clampSaturates : Obligations.ClampSaturates := by
  intro x
  refine ⟨clamp8_of_neg, clamp8_of_gt, fun h₀ h₁ => ?_, clamp8_le x⟩
  rw [clamp8_of_mem h₀ h₁, Int.toNat_of_nonneg h₀]

end Sys2Proof.Machine
end

section
/-! PROOFS. The outcome of a command (spec/10_state.md R24): where a decode stands after each of its block steps, as a
function of the registers and the frame bytes at its start, and what that function reads. -/

namespace Sys2Proof.Machine

/-! ### The geometry of the frame: the end of the block sequence, and the bytes a pixel is made of -/

/-- The block sequence stays at or below N, and stands at N only after the last block (R55, R57). -/
theorem blockI_le_and_eq_iff {a b t : Nat} (ha : 0 < a) (ht : t ≤ a * b) :
    blockI (2 * a) t ≤ 4 * (a * b) ∧ (blockI (2 * a) t = 4 * (a * b) ↔ t = a * b) := by
  rcases ht.eq_or_lt with rfl | ht
  · simp [blockI_last ha]
  · have := blockI_add_lt ha ht
    omega

/-- The bytes a decoded pixel is made of lie in FRAME[0 .. N + N/2 - 1] (R34, R58). -/
theorem decodedPixel_congr {f g : Nat → Byte} {a b p : Nat} (ha : 0 < a) (hp : p < 4 * (a * b))
    (h : ∀ c, c < 4 * (a * b) + 4 * (a * b) / 2 → f c = g c) :
    decodedPixel f (2 * a) (4 * (a * b)) p = decodedPixel g (2 * a) (4 * (a * b)) p := by
  have hb := blockOfPixel_lt ha hp
  have hc : chromaAddr (2 * a) (4 * (a * b)) p = 4 * (a * b) + 2 * blockOfPixel (2 * a) p := chromaAddr_eq a _ p
  unfold decodedPixel
  rw [h p (by omega), h (chromaAddr (2 * a) (4 * (a * b)) p) (by omega),
    h (chromaAddr (2 * a) (4 * (a * b)) p + 1) (by omega)]

/-! ### One block step -/

/-- PIX after a list of writes whose words are given by a function of the index. -/
theorem pixStored_writeAll_map (b : Buffer 32) (as : List Nat) (g : Nat → Pixel) (p : Nat) :
    pixStored { b with cells := Memory.writeAll b.cells (as.map fun a => (a, g a)) } p =
      if p ∈ as then g p else pixStored b p := by
  induction as generalizing b with
  | nil => simp
  | cons a as ih =>
    have hb := ih (b.store a (g a))
    rw [pixStored_store] at hb
    refine hb.trans ?_
    by_cases hp : p = a
    · subst hp; simp
    · simp [hp]

/-- At a block of the sequence of R57, the four words a block step writes are the decoded pixels of its block (R53,
R58). -/
theorem blockPixels_eq_map_decodedPixel {u : State} {a t : Nat} (ha : 0 < a) (hw : u.frameW = 2 * a)
    (hi : u.i.toNat = blockI (2 * a) t) (hk : u.k.toNat = blockK t) :
    u.blockPixels =
      (blockAddrs (2 * a) (blockI (2 * a) t)).map fun p => (p, decodedPixel u.frameByte (2 * a) u.frameN p) := by
  have hc : ∀ p ∈ blockAddrs (2 * a) (blockI (2 * a) t), chromaAddr (2 * a) u.frameN p = u.frameN + blockK t :=
    fun p hp => by rw [chromaAddr_eq, (mem_blockAddrs_iff ha).1 hp]
  simp only [blockAddrs, List.forall_mem_cons] at hc
  obtain ⟨h₁, h₂, h₃, h₄, -⟩ := hc
  simp [State.blockPixels, State.readBlock, blockAddrs, decodedPixel, hw, hi, hk, h₁, h₂, h₃, h₄]

/-! ### Where a decode stands after `t` block steps -/

/-- `u` is where the decode that `s` accepted stands after `t` of its block steps: STATUS, I and K in closed form (R55,
R57), the parameters, PIXOUT and FRAME untouched, and, where FRAME is as long as validation took it to be, PIX holding
the decoded pixels of the first `t` blocks and the old words elsewhere (R58). -/
structure DecodeAt (s : State) (t : Nat) (u : State) : Prop where
  state : u.state = if t < s.frameN / 4 then .busy else .done
  err : u.err = none
  i : u.i.toNat = blockI s.frameW t
  k : u.k.toNat = blockK t
  parameters : sameParameters s u
  pixout : u.pixout = s.pixout
  frame : u.frame = s.frame
  stale : u.stale = []
  pixSize : u.pix.size = s.pix.size
  pix : s.frameN + s.frameN / 2 ≤ s.frame.size → ∀ p, pixStored u.pix p =
    if blockOfPixel s.frameW p < t then decodedPixel (frameStored s.frame) s.frameW s.frameN p else pixStored s.pix p

/-- An accepted DECODE stands before its first block. -/
theorem decodeAt_zero {s : State} (hv : validate s = none) :
    DecodeAt s 0 (s.beginDecode.enterBusy.withPixFrame (some s.frameN)) := by
  obtain ⟨a, b, ha, hb, -, -, hN, -⟩ := valid_dims hv
  have hpos : 0 < s.frameN / 4 := by
    have := Nat.mul_pos ha hb
    omega
  constructor <;> simp [sameParameters, blockK, hpos]

theorem DecodeAt.frameW_eq {s u : State} {t : Nat} (h : DecodeAt s t u) : u.frameW = s.frameW := by
  simp [State.frameW, State.dimW, h.parameters]

theorem DecodeAt.frameN_eq {s u : State} {t : Nat} (h : DecodeAt s t u) : u.frameN = s.frameN := by
  simp [State.frameN, State.frameW, State.frameH, State.dimW, State.dimH, h.parameters]

/-- CORE reads each byte of FRAME as it stood when the decode was accepted. -/
theorem DecodeAt.frameByte_eq {s u : State} {t c : Nat} (h : DecodeAt s t u) (hc : c < s.frame.size) :
    u.frameByte c = frameStored s.frame c := by
  rw [State.frameByte_eq (h.frame ▸ hc) (by simp [h.stale]), h.frame]

/-- The writes of a block step, in the terms of `DecodeAt`: the block's own pixels become the decoded ones. -/
theorem DecodeAt.pixStored_storePixels {s u : State} {t : Nat} (h : DecodeAt s t u) (hv : validate s = none)
    (ht : t < s.frameN / 4) (hf : s.frameN + s.frameN / 2 ≤ s.frame.size) (p : Nat) :
    pixStored (u.storePixels u.blockPixels).pix p =
      if blockOfPixel s.frameW p < t + 1 then decodedPixel (frameStored s.frame) s.frameW s.frameN p
      else pixStored s.pix p := by
  obtain ⟨a, b, ha, -, hw, -, hN, -⟩ := valid_dims hv
  have hi := h.i
  rw [hw] at hi
  rw [State.storePixels_pix, blockPixels_eq_map_decodedPixel ha (h.frameW_eq.trans hw) hi h.k,
    pixStored_writeAll_map, h.frameN_eq, h.pix hf, hw]
  by_cases hp : blockOfPixel (2 * a) p = t
  · have hmem := (mem_blockAddrs_iff ha).2 hp
    have hlt : p < 4 * (a * b) := by
      have := blockI_add_lt (t := t) ha (by omega : t < a * b)
      simp only [blockAddrs, List.mem_cons, List.not_mem_nil, or_false] at hmem
      omega
    rw [if_pos hmem, if_pos (by omega), hN]
    exact decodedPixel_congr ha hlt fun c hc => h.frameByte_eq (by omega)
  · have hlt : blockOfPixel (2 * a) p < t + 1 ↔ blockOfPixel (2 * a) p < t := by omega
    simp only [mem_blockAddrs_iff ha, hp, hlt, if_false]

/-- Advance goes to the next block of the sequence, and the index registers hold where it begins (R4, R54, R57). -/
theorem DecodeAt.advance_indices {s u : State} {t : Nat} (h : DecodeAt s t u) (hv : validate s = none)
    (ht : t < s.frameN / 4) : u.advance.i.toNat = blockI s.frameW (t + 1) ∧ u.advance.k.toNat = blockK (t + 1) := by
  obtain ⟨a, b, ha, -, hw, -, hN, hmax⟩ := valid_dims hv
  obtain ⟨hle, -⟩ := blockI_le_and_eq_iff (b := b) (t := t + 1) ha (by omega)
  constructor
  · rw [State.advance_i, h.frameW_eq, h.i, hw, advanceI_blockI ha, BitVec.toNat_ofNat]
    omega
  · rw [State.advance_k, h.k, BitVec.toNat_ofNat]
    unfold blockK
    omega

/-- Advance reaches N after the last block, and not before (R55). -/
theorem DecodeAt.advance_i_eq_frameN_iff {s u : State} {t : Nat} (h : DecodeAt s t u) (hv : validate s = none)
    (ht : t < s.frameN / 4) : u.advance.i.toNat = u.frameN ↔ t + 1 = s.frameN / 4 := by
  obtain ⟨a, b, ha, -, hw, -, hN, -⟩ := valid_dims hv
  obtain ⟨-, hend⟩ := blockI_le_and_eq_iff (b := b) (t := t + 1) ha (by omega)
  rw [(h.advance_indices hv ht).1, h.frameN_eq, hw, hN, hend]
  omega

theorem State.finishIfDone_state (s : State) :
    s.finishIfDone.state = if s.i.toNat = s.frameN then .done else s.state := by
  unfold State.finishIfDone
  split <;> rfl

theorem State.finishIfDone_stale_of_nil {s : State} (h : s.stale = []) : s.finishIfDone.stale = [] := by
  rcases s.finishIfDone_cases with ⟨-, hd⟩ | ⟨-, hd⟩
  · rw [hd, State.enterDone_stale]
  · rw [hd, h]

/-- A block step takes a running decode from one block to the next, and ends it after the last (R53 to R55). -/
theorem DecodeAt.succ {s u : State} {t : Nat} (h : DecodeAt s t u) (hv : validate s = none) (ht : t < s.frameN / 4) :
    DecodeAt s (t + 1) (u.storePixels u.blockPixels).drawn.advance.finishIfDone where
  state := by
    have hend : (u.storePixels u.blockPixels).drawn.advance.i.toNat =
        (u.storePixels u.blockPixels).drawn.advance.frameN ↔ t + 1 = s.frameN / 4 := h.advance_i_eq_frameN_iff hv ht
    rw [State.finishIfDone_state]
    simp only [hend, State.advance_state, State.drawn_state, State.storePixels_state, h.state, if_pos ht]
    split
    · rw [if_neg (by omega)]
    · rw [if_pos (by omega)]
  err := by simp [h.err]
  i := by simpa using (h.advance_indices hv ht).1
  k := by simpa using (h.advance_indices hv ht).2
  parameters := by simpa [sameParameters] using h.parameters
  pixout := by simp [h.pixout]
  frame := by simp [h.frame]
  stale := State.finishIfDone_stale_of_nil (by simp [h.stale])
  pixSize := by simp [h.pixSize]
  pix := fun hf p => by simpa using h.pixStored_storePixels hv ht hf p

/-- Where PIX has room for the frame, CORE's turn in a running decode is that block step: it is not refused (R34, R98). -/
theorem DecodeAt.coreTurn_eq {s u : State} {t : Nat} (h : DecodeAt s t u) (hv : validate s = none)
    (hsize : s.frameN ≤ s.pix.size) (ht : t < s.frameN / 4) :
    coreTurn u = .next (u.storePixels u.blockPixels).drawn.advance.finishIfDone := by
  obtain ⟨a, b, ha, -, hw, -, hN, -⟩ := valid_dims hv
  have hbusy : u.state = .busy := by rw [h.state, if_pos ht]
  have hin : ∀ p ∈ blockAddrs u.frameW u.i.toNat, p < u.pix.size := by
    have := blockI_add_lt (t := t) ha (by omega : t < a * b)
    rw [h.frameW_eq, h.i, h.pixSize, hw]
    simp only [blockAddrs, List.mem_cons, List.not_mem_nil, or_false]
    omega
  rcases blockStep_cases u with ⟨-, hstep⟩ | ⟨⟨p, hp, hge⟩, -⟩
  · rw [coreTurn, if_pos hbusy, hstep]
  · exact absurd (hin p hp) hge.not_gt

/-! ### A whole decode -/

/-- Outside BUSY, DECODE on registers that validate starts a decode (R50). -/
theorem exec_decode_of_valid {s : State} (hb : s.state ≠ .busy) (hv : validate s = none) :
    exec .decode s = .next (s.beginDecode.enterBusy.withPixFrame (some s.frameN)) := by
  simp [exec, execDecode, hb, hv]

/-- Outside BUSY, DECODE on registers that do not validate takes the fault (R50, R85). -/
theorem exec_decode_of_invalid {s : State} {e : FaultCode} (hb : s.state ≠ .busy) (hv : validate s = some e) :
    exec .decode s = .next (s.beginDecode.raise e) := by
  simp [exec, execDecode, hb, hv]

/-- The run of an accepted DECODE, up to its end (R55, R57, R58): by induction on the number of block steps. -/
theorem coreSteps_decodeAt {s : State} (hv : validate s = none) (hsize : s.frameN ≤ s.pix.size) (t : Nat)
    (ht : t ≤ s.frameN / 4) :
    ∃ u, coreSteps t (s.beginDecode.enterBusy.withPixFrame (some s.frameN)) = .next u ∧ DecodeAt s t u := by
  induction t with
  | zero => exact ⟨_, rfl, decodeAt_zero hv⟩
  | succ t ih =>
    obtain ⟨u, hu, hat⟩ := ih (by omega)
    exact ⟨_, by rw [coreSteps_succ, hu]; exact hat.coreTurn_eq hv hsize ht, hat.succ hv ht⟩

/-- Outside BUSY the turns of CORE change nothing (R10). -/
theorem coreSteps_of_not_busy {s : State} (h : s.state ≠ .busy) (n : Nat) : coreSteps n s = .next s := by
  induction n with
  | zero => rfl
  | succ n ih => rw [coreSteps_succ, ih]; exact if_neg h

/-- A whole decode of registers that validate, into a buffer with room for it, ends after its N/4 block steps. -/
theorem decodeRun_of_valid {s : State} (hb : s.state ≠ .busy) (hturns : s.turns = []) (hv : validate s = none)
    (hsize : s.frameN ≤ s.pix.size) : ∃ t, decodeRun s = .next t ∧ DecodeAt s (s.frameN / 4) t := by
  obtain ⟨t, ht, hat⟩ := coreSteps_decodeAt hv hsize _ le_rfl
  refine ⟨t, ?_, hat⟩
  simp only [decodeRun, exec_decode_of_valid hb hv]
  rw [steps_of_no_turns _ _ (by simpa using hturns), ht]

/-- A decode of registers that do not validate ends where it began, in the fault (R51, R85). -/
theorem decodeRun_of_invalid {s : State} {e : FaultCode} (hb : s.state ≠ .busy) (hturns : s.turns = [])
    (hv : validate s = some e) : decodeRun s = .next (s.beginDecode.raise e) := by
  simp only [decodeRun, exec_decode_of_invalid hb hv]
  rw [steps_of_no_turns _ _ (by simpa using hturns), coreSteps_of_not_busy (by simp)]

/-- Where validation passes on truthful sizes, PIX is one word for each pixel of the frame (R51, R98). -/
theorem frameN_eq_pixSize {s : State} (hv : validate s = none) (htrue : s.truthful) : s.frameN = s.pix.size := by
  obtain ⟨-, -, -, -, -, hcap⟩ := (valid_iff s).1 hv
  exact hcap.symm.trans htrue.2

/-- After a whole decode of truthful sizes, each pixel of the frame is decoded from the frame's bytes (R58). -/
theorem DecodeAt.pixStored_of_finished {s u : State} {p : Nat} (h : DecodeAt s (s.frameN / 4) u)
    (hv : validate s = none) (htrue : s.truthful) (hp : p < s.frameN) :
    pixStored u.pix p = decodedPixel (frameStored s.frame) s.frameW s.frameN p := by
  obtain ⟨a, b, ha, -, hw, -, hN, -⟩ := valid_dims hv
  obtain ⟨-, -, -, -, hlen, -⟩ := (valid_iff s).1 hv
  have hblock := blockOfPixel_lt ha (hN ▸ hp)
  rw [h.pix (hlen.trans htrue.1), if_pos (by rw [hw]; omega)]

/-! ### What the outcome depends on -/

/-- Validation reads the four registers alone (R51). -/
theorem validate_congr {s s' : State} (hw : s.width = s'.width) (hh : s.height = s'.height)
    (hl : s.frameLen = s'.frameLen) (hc : s.outCap = s'.outCap) : validate s = validate s' := by
  unfold validate State.dimW State.dimH
  rw [hw, hh, hl, hc]

theorem frameW_congr {s s' : State} (hw : s.width = s'.width) : s.frameW = s'.frameW := by
  simp [State.frameW, State.dimW, hw]

theorem frameN_congr {s s' : State} (hw : s.width = s'.width) (hh : s.height = s'.height) : s.frameN = s'.frameN := by
  simp [State.frameN, State.frameW, State.frameH, State.dimW, State.dimH, hw, hh]

/-- The STATUS word is made of STATE and ERR (R45). -/
theorem statusWord_congr {s s' : State} (h : sameStatus s s') : s.statusWord = s'.statusWord := by
  obtain ⟨hstate, herr, -, -⟩ := h
  simp [State.statusWord, hstate, herr]

/-- Decodes of frames of the same size stand at the same STATUS, I and K after the same number of block steps. -/
theorem DecodeAt.sameStatus {s s' u u' : State} {t : Nat} (h : DecodeAt s t u) (h' : DecodeAt s' t u')
    (hw : s.frameW = s'.frameW) (hN : s.frameN = s'.frameN) : sameStatus u u' :=
  ⟨by rw [h.state, h'.state, hN], by rw [h.err, h'.err], BitVec.eq_of_toNat_eq (by rw [h.i, h'.i, hw]),
    BitVec.eq_of_toNat_eq (by rw [h.k, h'.k])⟩

/-- The word XFORM writes (R65). -/
theorem exec_xform_of_not_busy {s : State} (hb : s.state ≠ .busy) :
    exec .xform s = .next (s.withPixout (ct (sval16 s.opy) (sval16 s.opu) (sval16 s.opv))) := by
  simp [exec, execXform, hb]

/-- Settles O42: both decodes fault alike, or both end with the closed forms of `DecodeAt`, which name nothing but the
registers and the bytes the two states share; XFORM's word names its three operands alone. -/
theorem decodeDependsOnItsInputsAlone : Obligations.DecodeDependsOnItsInputsAlone := by
  constructor
  · intro s s' hb hb' hturns hturns' htrue htrue' hw hh hl hc hframe
    have hval := validate_congr hw hh hl hc
    have hW := frameW_congr hw
    have hN := frameN_congr hw hh
    cases hv : validate s with
    | some e =>
      refine ⟨_, _, decodeRun_of_invalid hb hturns hv, decodeRun_of_invalid hb' hturns' (hval ▸ hv),
        ⟨rfl, rfl, rfl, rfl⟩, rfl, fun hdone => ?_⟩
      simp at hdone
    | none =>
      have hv' : validate s' = none := hval ▸ hv
      obtain ⟨a, b, ha, -, hwa, -, hNab, -⟩ := valid_dims hv
      obtain ⟨t, hrun, hat⟩ := decodeRun_of_valid hb hturns hv (frameN_eq_pixSize hv htrue).le
      obtain ⟨t', hrun', hat'⟩ := decodeRun_of_valid hb' hturns' hv' (frameN_eq_pixSize hv' htrue').le
      have hstatus : sameStatus t t' := hat.sameStatus (hN ▸ hat') hW hN
      refine ⟨t, t', hrun, hrun', hstatus, statusWord_congr hstatus, fun _ p hp => ?_⟩
      rw [hat.pixStored_of_finished hv htrue hp, hat'.pixStored_of_finished hv' htrue' (hN ▸ hp), ← hW, ← hN, hwa, hNab]
      exact decodedPixel_congr ha (hNab ▸ hp) (hNab ▸ hframe)
  · intro s s' hb hb' hy hu hv
    exact ⟨_, _, exec_xform_of_not_busy hb, exec_xform_of_not_busy hb', by simp [hy, hu, hv]⟩

end Sys2Proof.Machine
end

section
/-! PROOFS. The control encodings of spec/30_encoding.md: the command word and the command map (R43, R44). -/

namespace Sys2Proof

/-- No bit of a word is dropped by the fields of CMDW (R43). -/
theorem cmdWord_cmdFields (d : CommandWord) : cmdWord (cmdFields d) = d :=
  (BitVec.extractLsb'_append_extractLsb'_eq_extractLsb' rfl).trans BitVec.extractLsb'_eq_self

theorem decode_encode : ∀ i : Instr, decode (encode i) = .ok i
  | .decode => let ⟨_, _, hread⟩ := Laws.Codec.decode; hread
  | .xform => let ⟨_, _, hread⟩ := Laws.Codec.xform; hread

/-- What the decoder checks before it selects a command: both fields are those of the command's row (R43, R44). -/
theorem cmdFields_eq_of_decode_eq_ok {d : CommandWord} {i : Instr} (h : decode d = .ok i) :
    cmdFields d = encodeFields i := by
  rcases hc : cmdFields d with ⟨zero, op⟩
  simp only [decode, hc] at h
  split at h
  · cases h
  next hzero =>
    obtain rfl : zero = 0x000000#24 := not_not.mp hzero
    split at h
    next hop => cases h; rw [hop, encodeFields]
    next =>
      split at h
      next hop => cases h; rw [hop, encodeFields]
      next => cases h

/-- The decoder reads a command from its own word and from no other (R44). -/
theorem decode_eq_ok_iff {d : CommandWord} {i : Instr} : decode d = .ok i ↔ d = encode i where
  mp h := by rw [← cmdWord_cmdFields d, cmdFields_eq_of_decode_eq_ok h, encode]
  mpr h := h ▸ decode_encode i

/-- Settles O1: a word that selected a command would be that command's word, and `encode` makes 1 and 2 of the two. -/
theorem commandMapIsExact : Obligations.CommandMapIsExact := by
  refine ⟨decode_encode .decode, decode_encode .xform, fun d hdecode hxform => ?_⟩
  cases h : decode d with
  | error e => exact ⟨e, rfl⟩
  | ok i =>
    have hd : d = encode i := decode_eq_ok_iff.mp h
    cases i with
    | decode => exact absurd hd hdecode
    | xform => exact absurd hd hxform

end Sys2Proof
end

section
/-! PROOFS. The STATUS word (spec/30_encoding.md R45): its three fields, and the six values it takes where ERR goes with
STATE as spec/10_state.md R12 says. -/

namespace Sys2Proof.Machine

theorem State.statusWord_reserved (s : State) : s.statusWord.extractLsb' 4 28 = 0#28 :=
  calc s.statusWord.extractLsb' 4 28
    _ = (0#28 ++ errCode s.err).extractLsb' 2 28 := BitVec.extractLsb'_append_eq_of_le (by decide)
    _ = 0#28 := BitVec.extractLsb'_append_eq_left

theorem State.statusWord_err (s : State) : s.statusWord.extractLsb' 2 2 = errCode s.err :=
  calc s.statusWord.extractLsb' 2 2
    _ = (0#28 ++ errCode s.err).extractLsb' 0 2 := BitVec.extractLsb'_append_eq_of_le (by decide)
    _ = errCode s.err := BitVec.extractLsb'_append_eq_right

theorem State.statusWord_state (s : State) : s.statusWord.extractLsb' 0 2 = stateCode s.state :=
  BitVec.extractLsb'_append_eq_right

/-- R12: either there is no error, in IDLE, BUSY or DONE, or there is one of the three, in FAULT. -/
theorem State.errOnlyInFault.cases {s : State} (h : s.errOnlyInFault) :
    (s.err = none ∧ s.state ≠ .fault) ∨ ∃ e, s.err = some e ∧ s.state = .fault := by
  cases he : s.err with
  | none => exact .inl ⟨rfl, fun hf => by simpa [he] using h.mpr hf⟩
  | some e => exact .inr ⟨e, rfl, h.mp (by rw [he, Option.isSome_some])⟩

/-- The six values of STATUS follow from R12 alone (R45). -/
theorem State.statusWord_mem {s : State} (h : s.errOnlyInFault) :
    s.statusWord ∈ [0x0#32, 0x1#32, 0x2#32, 0x7#32, 0xB#32, 0xF#32] := by
  obtain ⟨herr, hstate⟩ | ⟨e, herr, hstate⟩ := h.cases
  · rw [State.statusWord, herr]
    cases hs : s.state with
    | idle | busy | done => decide
    | fault => exact absurd hs hstate
  · rw [State.statusWord, herr, hstate]
    cases e with
    | invalidDimensions | bufferTooSmall | outputSizeMismatch => decide

/-- Settles O31: the three fields are the parts `statusWord` is put together from, and a legal state keeps R12. -/
theorem statusWordFields : Obligations.StatusWordFields := by
  refine fun s => ⟨s.statusWord_reserved, s.statusWord_err.trans ?_, s.statusWord_state.trans ?_,
    fun hinv => State.statusWord_mem hinv.err⟩
  · cases s.err with
    | none => rfl
    | some e => cases e <;> rfl
  · cases s.state <;> rfl

end Sys2Proof.Machine
end

section
/-! PROOFS. The block step, the block sequence and the result of a decode (spec/40_frame_decoder.md R53 to R59). -/

namespace Sys2Proof.Machine

/-! ### The block sequence -/

/-- A frame that validates has at least one block. -/
theorem frameN_div_four_pos {s : State} (hv : validate s = none) : 0 < s.frameN / 4 := by
  obtain ⟨a, b, ha, hb, -, -, hN, -⟩ := valid_dims hv
  have := Nat.mul_pos ha hb
  omega

/-- K in terms of block row and block column (R57). -/
theorem row_mul_add_col_eq_blockK {w : Nat} (hw : w % 2 = 0) (t : Nat) :
    t / (w / 2) * w + 2 * (t % (w / 2)) = blockK t :=
  calc t / (w / 2) * w + 2 * (t % (w / 2))
    _ = t / (w / 2) * (2 * (w / 2)) + 2 * (t % (w / 2)) := by rw [Nat.two_mul_div_two_of_even (Nat.even_iff.2 hw)]
    _ = 2 * (w / 2 * (t / (w / 2)) + t % (w / 2)) := by ring
    _ = blockK t := by rw [Nat.div_add_mod, blockK]

/-- After the last block of a frame that validates I stands at N and K at N/2 (R55, R57). -/
theorem blockI_blockK_finished {s : State} (hv : validate s = none) :
    blockI s.frameW (s.frameN / 4) = s.frameN ∧ blockK (s.frameN / 4) = s.frameN / 2 := by
  obtain ⟨a, b, ha, -, hw, -, hN, -⟩ := valid_dims hv
  have hblocks : s.frameN / 4 = a * b := by omega
  rw [hblocks, hw, blockI_last ha, hN, blockK]
  omega

/-- Settles O38: `DecodeAt` holds I and K in closed form at every block of the run, and at its end. -/
theorem blockSequenceInClosedForm : Obligations.BlockSequenceInClosedForm := by
  intro s hb hv hsize
  obtain ⟨-, -, heven, -, -, -⟩ := (valid_iff s).1 hv
  refine ⟨_, exec_decode_of_valid hb hv, frameN_div_four_pos hv, fun t ht => ?_, ?_⟩
  · obtain ⟨u, hrun, hat⟩ := coreSteps_decodeAt hv hsize t ht.le
    exact ⟨u, hrun, hat.state.trans (if_pos ht), hat.i, hat.k.trans (row_mul_add_col_eq_blockK heven t).symm, hat.k⟩
  · obtain ⟨u, hrun, hat⟩ := coreSteps_decodeAt hv hsize _ le_rfl
    obtain ⟨hi, hk⟩ := blockI_blockK_finished hv
    exact ⟨u, hrun, hat.state.trans (if_neg (lt_irrefl _)), hat.i.trans hi, hat.k.trans hk⟩

/-! ### The nested loop -/

/-- The loop over one more block row runs on through that row's blocks. -/
theorem nestedLoop_succ (w b : Nat) :
    nestedLoop w (2 * (b + 1)) =
      nestedLoop w (2 * b) ++ (List.range (w / 2)).map fun bc => (2 * b * w + 2 * bc, b * w + 2 * bc) := by
  have h : 2 * (b + 1) / 2 = b + 1 := by omega
  have h' : 2 * b / 2 = b := by omega
  simp [nestedLoop, h, h', List.range_succ]

/-- The blocks of block row `b` in the closed form of R57. -/
theorem blockI_blockK_row {a b c : Nat} (hc : c < a) :
    (blockI (2 * a) (a * b + c), blockK (a * b + c)) = (2 * b * (2 * a) + 2 * c, b * (2 * a) + 2 * c) := by
  obtain ⟨hq, hr⟩ := row_col_of_index (row := b) hc
  rw [blockI_eq, blockK, hq, hr, Prod.mk.injEq]
  constructor <;> ring

/-- The nested loop and the block sequence are the same list (R59): by induction on the number of block rows. -/
theorem nestedLoop_eq_map_block (a b : Nat) :
    nestedLoop (2 * a) (2 * b) = (List.range (a * b)).map fun t => (blockI (2 * a) t, blockK t) := by
  induction b with
  | zero => rfl
  | succ b ih =>
    have h : 2 * a / 2 = a := by omega
    rw [nestedLoop_succ, ih, Nat.mul_succ, List.range_add, List.map_append, List.map_map, h]
    congr 1
    exact List.map_congr_left fun c hc => (blockI_blockK_row (List.mem_range.1 hc)).symm

/-- Settles O39: both sides are the closed form of R57, the loop as a list and the run as `DecodeAt`. -/
theorem blockStepsAreTheNestedLoop : Obligations.BlockStepsAreTheNestedLoop := by
  intro s s₀ hb hv hsize hexec
  obtain ⟨a, b, -, -, hw, hh, hN, -⟩ := valid_dims hv
  have hblocks : s.frameN / 4 = a * b := by omega
  cases (exec_decode_of_valid hb hv).symm.trans hexec
  rw [hw, hh, nestedLoop_eq_map_block, hblocks]
  refine ⟨by simp, fun t ht => ?_⟩
  obtain ⟨u, hrun, hat⟩ := coreSteps_decodeAt hv hsize t (by omega)
  exact ⟨u, hrun, by simp [ht, hat.i, hat.k, hw]⟩

/-! ### The result of a decode -/

/-- Validation in the terms of the statements (R51, R81 to R84): the first of the three conditions that fails. -/
theorem validate_eq_ite (s : State) :
    validate s =
      if ¬ s.legalDims then some .invalidDimensions
      else if ¬ s.frameLongEnough then some .bufferTooSmall
      else if ¬ s.capacityExact then some .outputSizeMismatch
      else none := by
  have hdims : (s.dimW ≤ 0 ∨ s.dimH ≤ 0 ∨ s.dimW % 2 = 1 ∨ s.dimH % 2 = 1) ↔ ¬ s.legalDims := by
    unfold State.legalDims
    omega
  simp only [validate, hdims, ← not_le, ne_eq]

/-- The pixels of the first N/4 blocks are the pixels below N (R39, R57). -/
theorem lt_of_blockOfPixel_lt {a b p : Nat} (ha : 0 < a) (h : blockOfPixel (2 * a) p < a * b) : p < 4 * (a * b) := by
  have hlast := blockI_add_lt ha h
  have hmem := (mem_blockAddrs_iff (p := p) ha).2 rfl
  simp only [blockAddrs, List.mem_cons, List.not_mem_nil, or_false] at hmem
  omega

/-- A decoded pixel in the terms of its row and column (R28 to R30, R58). -/
theorem decodedPixel_row_col (f : Nat → Byte) {w n row col : Nat} (hcol : col < w) :
    decodedPixel f w n (row * w + col) =
      ct (luma (f (row * w + col))) (rebias (f (n + row / 2 * w + 2 * (col / 2) + 1)))
        (rebias (f (n + row / 2 * w + 2 * (col / 2)))) := by
  obtain ⟨hrow, hcol'⟩ := row_col_of_index (row := row) hcol
  rw [mul_comm] at hrow hcol'
  rw [decodedPixel, chromaAddr, hrow, hcol']

/-- After a whole decode the words of PIX at and beyond N are as they were (R58). -/
theorem DecodeAt.samePixBut_of_finished {s u : State} (h : DecodeAt s (s.frameN / 4) u) (hv : validate s = none)
    (htrue : s.truthful) : samePixBut (List.range s.frameN) s u := by
  obtain ⟨a, b, ha, -, hw, -, hN, -⟩ := valid_dims hv
  obtain ⟨-, -, -, -, hlen, -⟩ := (valid_iff s).1 hv
  refine ⟨h.pixSize, fun p hp => ?_⟩
  rw [List.mem_range] at hp
  rw [h.pix (hlen.trans htrue.1), hw, if_neg]
  intro hblock
  have := lt_of_blockOfPixel_lt (b := b) (p := p) ha (by omega)
  omega

/-- Outside BUSY, a DECODE that fails validation ends in FAULT with the failure's code (R85). -/
theorem exec_decode_fault {s : State} {e : FaultCode} (hb : s.state ≠ .busy) (hv : validate s = some e) :
    ∃ t, exec .decode s = .next t ∧ t.state = .fault ∧ t.err = some e :=
  ⟨_, exec_decode_of_invalid hb hv, rfl, rfl⟩

/-- Settles O41: the three faults by the first condition that fails; else the run ends in `DecodeAt`, whose pixels are
read at row and column. -/
theorem decodeConvertsTheWholeFrame : Obligations.DecodeConvertsTheWholeFrame := by
  intro s hb hturns
  have hval := validate_eq_ite s
  refine ⟨fun hd => exec_decode_fault hb (by rw [hval, if_pos hd]),
    fun hd hl => exec_decode_fault hb (by rw [hval, if_neg (not_not.2 hd), if_pos hl]),
    fun hd hl hc => exec_decode_fault hb (by rw [hval, if_neg (not_not.2 hd), if_neg (not_not.2 hl), if_pos hc]),
    fun hd hl hc htrue => ?_⟩
  have hv : validate s = none := by
    rw [hval, if_neg (not_not.2 hd), if_neg (not_not.2 hl), if_neg (not_not.2 hc)]
  obtain ⟨t, hrun, hat⟩ := decodeRun_of_valid hb hturns hv (frameN_eq_pixSize hv htrue).le
  obtain ⟨hi, hk⟩ := blockI_blockK_finished hv
  refine ⟨t, hrun, hat.state.trans (if_neg (lt_irrefl _)), hat.err, hat.i.trans hi, hat.k.trans hk,
    fun row col hrow hcol => ?_, hat.samePixBut_of_finished hv htrue, hat.frame, hat.parameters, hat.pixout⟩
  have hp : row * s.frameW + col < s.frameN :=
    calc row * s.frameW + col
      _ < (row + 1) * s.frameW := by rw [Nat.succ_mul]; omega
      _ ≤ s.frameH * s.frameW := Nat.mul_le_mul_right _ hrow
      _ = s.frameN := Nat.mul_comm _ _
  rw [hat.pixStored_of_finished hv htrue hp, decodedPixel_row_col _ hcol]

/-! ### One block step of a legal state -/

/-- The block a legal state that is BUSY stands at (R57): the frame, the block's number, and I and K there. -/
theorem State.Inv.block {s : State} (h : s.Inv) (hb : s.state = .busy) :
    validate s = none ∧ ∃ a b t, 0 < a ∧ t < a * b ∧ s.frameW = 2 * a ∧ s.frameN = 4 * (a * b) ∧
      s.frameN ≤ 1073610756 ∧ s.i.toNat = blockI (2 * a) t ∧ s.k.toNat = blockK t := by
  have hindices := h.indices
  simp only [State.indicesLegal, hb] at hindices
  obtain ⟨hv, t, ht, hi, hk⟩ := hindices
  obtain ⟨a, b, ha, -, hw, -, hN, hmax⟩ := valid_dims hv
  exact ⟨hv, a, b, t, ha, by omega, hw, hN, hmax, hw ▸ hi, hk⟩

/-- Advance does not wrap in a legal state that is BUSY (R4, R54). -/
theorem State.Inv.advance_toNat {s : State} (h : s.Inv) (hb : s.state = .busy) :
    s.advance.i.toNat = advanceI s.frameW s.i.toNat ∧ s.advance.k.toNat = s.k.toNat + 2 := by
  obtain ⟨-, a, b, t, ha, ht, hw, hN, hmax, hi, hk⟩ := h.block hb
  obtain ⟨hle, -⟩ := blockI_le_and_eq_iff (b := b) (t := t + 1) ha ht
  rw [State.advance_i, State.advance_k, BitVec.toNat_ofNat, BitVec.toNat_ofNat]
  constructor
  · rw [hi, hw, advanceI_blockI ha]
    omega
  · rw [hk, blockK]
    omega

/-- The block of a legal state that is BUSY lies in the frame (R34). -/
theorem State.Inv.blockAddrs_lt {s : State} (h : s.Inv) (hb : s.state = .busy) :
    ∀ p ∈ blockAddrs s.frameW s.i.toNat, p < s.frameN := by
  obtain ⟨-, a, b, t, ha, ht, hw, hN, -, hi, -⟩ := h.block hb
  have := blockI_add_lt ha ht
  rw [hw, hi, hN]
  simp only [blockAddrs, List.mem_cons, List.not_mem_nil, or_false]
  omega

/-- Settles O35: the two branches of `advanceI`, which the index registers hold without wrap. -/
theorem advanceMovesToTheNextBlock : Obligations.AdvanceMovesToTheNextBlock := by
  intro s t hinv hb hstep
  obtain ⟨-, rfl⟩ := blockStep_next hstep
  obtain ⟨hi, hk⟩ := hinv.advance_toNat hb
  rw [State.finishIfDone_i, State.finishIfDone_k]
  exact ⟨hk, fun h => hi.trans (if_pos h), fun h => hi.trans (if_neg h)⟩

/-- The four pixels of the block share the chroma pair that starts at K (R29, R52). -/
theorem State.Inv.chromaAddr_eq_of_mem_block {s : State} (h : s.Inv) (hb : s.state = .busy) {p : Nat}
    (hp : p ∈ blockAddrs s.frameW s.i.toNat) : chromaAddr s.frameW s.frameN p = s.frameN + s.k.toNat := by
  obtain ⟨-, a, b, t, ha, -, hw, -, -, hi, hk⟩ := h.block hb
  rw [hw, hi] at hp
  rw [hw, chromaAddr_eq, (mem_blockAddrs_iff ha).1 hp, hk]

/-- The writes of a block step, with truthful sizes and a stable frame: the block's own pixels become those decoded from
the bytes that stand in FRAME (R53, R58). -/
theorem State.Inv.pixStored_storePixels {s : State} (h : s.Inv) (hb : s.state = .busy) (htrue : s.truthful)
    (hstable : s.frameStable) (p : Nat) :
    pixStored (s.storePixels s.blockPixels).pix p =
      if p ∈ blockAddrs s.frameW s.i.toNat then decodedPixel (frameStored s.frame) s.frameW s.frameN p
      else pixStored s.pix p := by
  obtain ⟨hv, a, b, t, ha, -, hw, hN, -, hi, hk⟩ := h.block hb
  obtain ⟨-, -, -, -, hlen, -⟩ := (valid_iff s).1 hv
  have hsize : s.frameN + s.frameN / 2 ≤ s.frame.size := hlen.trans htrue.1
  have hlt := h.blockAddrs_lt hb p
  rw [State.storePixels_pix, blockPixels_eq_map_decodedPixel ha hw hi hk, pixStored_writeAll_map, ← hi, ← hw]
  split
  next hp =>
    rw [hw, hN]
    exact decodedPixel_congr ha (hN ▸ hlt hp) fun c hc => State.frameByte_eq (by omega) (hstable c)
  next => rfl

/-- Settles O36: a block step that fits PIX is not refused, and each field of the state it leaves is read off. -/
theorem blockStepWritesItsFourPixels : Obligations.BlockStepWritesItsFourPixels := by
  intro s hinv hb htrue hstable
  obtain ⟨hv, -⟩ := hinv.block hb
  obtain ⟨hi, hk⟩ := hinv.advance_toNat hb
  rcases blockStep_cases s with ⟨-, hstep⟩ | ⟨⟨p, hp, hge⟩, -⟩
  · have hpix := hinv.pixStored_storePixels hb htrue hstable
    refine ⟨_, hstep, fun p hp => ?_, ⟨by simp, fun p hp => ?_⟩, by simp, by simp [sameParameters], by simp, by simp,
      by simp [sameHostSide], by simpa using hi, by simpa using hk, ?_, ?_⟩
    · have hp' := (hpix p).trans (if_pos hp)
      rw [decodedPixel, hinv.chromaAddr_eq_of_mem_block hb hp] at hp'
      simpa using hp'
    · simpa using (hpix p).trans (if_neg hp)
    · rw [State.finishIfDone_state]
      simp [hb]
    · rw [State.finishIfDone_state]
      simp [hb]
  · exact absurd (hinv.blockAddrs_lt hb p hp) (by rw [frameN_eq_pixSize hv htrue]; exact hge.not_gt)

end Sys2Proof.Machine
end

section
/-! PROOFS. The Color Transform and the command XFORM (spec/41_color_transform.md R60 to R65, R69). -/

namespace Sys2Proof.Machine

/-! ### The chroma terms and the channel sums -/

theorem chromaTerms_eq (u v : Int) :
    chromaTerms u v = ⟨tq (1772 * v) 1000, tq (344 * v + 714 * u) 1000, tq (1402 * u) 1000⟩ := rfl

@[simp] theorem chromaTerms_tr (u v : Int) : (chromaTerms u v).tr = tq (1772 * v) 1000 := rfl
@[simp] theorem chromaTerms_tg (u v : Int) : (chromaTerms u v).tg = tq (344 * v + 714 * u) 1000 := rfl
@[simp] theorem chromaTerms_tb (u v : Int) : (chromaTerms u v).tb = tq (1402 * u) 1000 := rfl

@[simp] theorem channelSums_r (y : Int) (t : ChromaTerms) : (channelSums y t).r = y + t.tr := rfl
@[simp] theorem channelSums_g (y : Int) (t : ChromaTerms) : (channelSums y t).g = y - t.tg := rfl
@[simp] theorem channelSums_b (y : Int) (t : ChromaTerms) : (channelSums y t).b = y + t.tb := rfl

/-- The quotient of a numerator between two others lies between their quotients. -/
theorem tq_mem_of_mem {l n h a b : Int} {d : Nat} (hd : 0 < d) (ha : tq l d = a) (hb : tq h d = b)
    (hl : l ≤ n) (hh : n ≤ h) : a ≤ tq n d ∧ tq n d ≤ b :=
  ⟨ha ▸ tq_mono hl hd, hb ▸ tq_mono hh hd⟩

/-- The range of TR on the nominal domain, from the ends of the range of its numerator (R61). -/
theorem chromaTerms_tr_mem {u v : Int} (hl : -128 ≤ v) (hh : v ≤ 127) :
    -226 ≤ (chromaTerms u v).tr ∧ (chromaTerms u v).tr ≤ 225 := by
  rw [chromaTerms_tr]
  exact tq_mem_of_mem (l := -226816) (h := 225044) (by decide) (by decide) (by decide) (by omega) (by omega)

/-- The range of TG on the nominal domain (R61). -/
theorem chromaTerms_tg_mem {u v : Int} (hul : -128 ≤ u) (huh : u ≤ 127) (hvl : -128 ≤ v) (hvh : v ≤ 127) :
    -135 ≤ (chromaTerms u v).tg ∧ (chromaTerms u v).tg ≤ 134 := by
  rw [chromaTerms_tg]
  exact tq_mem_of_mem (l := -135424) (h := 134366) (by decide) (by decide) (by decide) (by omega) (by omega)

/-- The range of TB on the nominal domain (R61). -/
theorem chromaTerms_tb_mem {u v : Int} (hl : -128 ≤ u) (hh : u ≤ 127) :
    -179 ≤ (chromaTerms u v).tb ∧ (chromaTerms u v).tb ≤ 178 := by
  rw [chromaTerms_tb]
  exact tq_mem_of_mem (l := -179456) (h := 178054) (by decide) (by decide) (by decide) (by omega) (by omega)

/-- The chroma terms are odd in `(u, v)`: the numerators are linear and `tq` is odd (R61). -/
theorem chromaTerms_neg (u v : Int) :
    chromaTerms (-u) (-v) = ⟨-(chromaTerms u v).tr, -(chromaTerms u v).tg, -(chromaTerms u v).tb⟩ := by
  have hg : 344 * -v + 714 * -u = -(344 * v + 714 * u) := by ring
  rw [chromaTerms_eq, chromaTerms_eq, hg, mul_neg, mul_neg, tq_neg, tq_neg, tq_neg]

/-- Settles O10: oddness is `tq`'s, and the ranges are `tq` at the ends of the numerators' ranges. -/
theorem chromaTermsAreExactAndOdd : Obligations.ChromaTermsAreExactAndOdd := by
  intro u v
  rw [chromaTerms_neg]
  refine ⟨rfl, rfl, rfl, rfl, rfl, rfl, fun hul huh hvl hvh => ?_⟩
  obtain ⟨hrl, hrh⟩ := chromaTerms_tr_mem (u := u) hvl hvh
  obtain ⟨hgl, hgh⟩ := chromaTerms_tg_mem hul huh hvl hvh
  obtain ⟨hbl, hbh⟩ := chromaTerms_tb_mem (v := v) hul huh
  exact ⟨hrl, hrh, hgl, hgh, hbl, hbh⟩

/-- Settles O11: the negated-sum form is the oddness of `tq`, and the ranges add the luma's to the terms'. -/
theorem channelSumsStayInRange : Obligations.ChannelSumsStayInRange := by
  intro y u v
  refine ⟨rfl, rfl, ?_, rfl, fun hyl hyh hul huh hvl hvh => ?_⟩
  · rw [tq_neg, channelSums_g, chromaTerms_tg, sub_eq_add_neg]
  · have hr := chromaTerms_tr_mem (u := u) hvl hvh
    have hg := chromaTerms_tg_mem hul huh hvl hvh
    have hb := chromaTerms_tb_mem (v := v) hul huh
    rw [channelSums_r, channelSums_g, channelSums_b]
    omega

/-! ### The bytes of a pixel -/

/-- The four bytes of a packed word are its four fields (R42, R64). -/
theorem pack_bytes {r g b : Nat} (hr : r ≤ 255) (hg : g ≤ 255) (hb : b ≤ 255) :
    ((pack r g b).extractLsb' 24 8).toNat = 0xFF ∧ ((pack r g b).extractLsb' 16 8).toNat = r ∧
      ((pack r g b).extractLsb' 8 8).toNat = g ∧ ((pack r g b).extractLsb' 0 8).toNat = b := by
  simp only [BitVec.extractLsb'_toNat, pack_toNat hr hg hb, Nat.shiftRight_eq_div_pow]
  omega

/-- The bytes of a pixel, each channel clamped on its own (R63, R64). -/
theorem ct_bytes (y u v : Int) :
    ((ct y u v).extractLsb' 24 8).toNat = 0xFF ∧
    ((ct y u v).extractLsb' 16 8).toNat = clamp8 (y + tq (1772 * v) 1000) ∧
    ((ct y u v).extractLsb' 8 8).toNat = clamp8 (y - tq (344 * v + 714 * u) 1000) ∧
    ((ct y u v).extractLsb' 0 8).toNat = clamp8 (y + tq (1402 * u) 1000) :=
  pack_bytes (clamp8_le _) (clamp8_le _) (clamp8_le _)

theorem ct_red (y u v : Int) : ((ct y u v).extractLsb' 16 8).toNat = clamp8 (y + tq (1772 * v) 1000) :=
  let ⟨_, hred, _, _⟩ := ct_bytes y u v; hred

theorem ct_green (y u v : Int) : ((ct y u v).extractLsb' 8 8).toNat = clamp8 (y - tq (344 * v + 714 * u) 1000) :=
  let ⟨_, _, hgreen, _⟩ := ct_bytes y u v; hgreen

theorem ct_blue (y u v : Int) : ((ct y u v).extractLsb' 0 8).toNat = clamp8 (y + tq (1402 * u) 1000) :=
  let ⟨_, _, _, hblue⟩ := ct_bytes y u v; hblue

/-- Settles O13: the fields of the packed word are the clamped channel sums. -/
theorem pixelBytesOfTheTransform : Obligations.PixelBytesOfTheTransform := ct_bytes

/-- Settles O12: the OR form is `pack` with the chip's alpha, and the sum form is `pack_toNat`. -/
theorem packFieldsDoNotOverlap : Obligations.PackFieldsDoNotOverlap := by
  intro r g b hr hg hb
  have halpha : Config.chip.alpha.setWidth 32 <<< 24 = 0xFF000000#32 := by decide
  exact ⟨by rw [pack, halpha], pack_toNat hr hg hb⟩

/-! ### Properties of the transform -/

/-- Without chroma the three channels are the clamped luma (R69 (c)). -/
theorem ct_grey_toNat (y : Int) : (ct y 0 0).toNat = 0xFF000000 + clamp8 y * 0x010101 := by
  have hzero : chromaTerms 0 0 = ⟨0, 0, 0⟩ := by decide
  rw [ct_toNat, hzero, channelSums_r, channelSums_g, channelSums_b, add_zero, sub_zero]
  omega

/-- Each channel is the clamp of a sum that grows with the luma (R69 (d)). -/
theorem ct_channels_mono {y y' : Int} (h : y ≤ y') (u v : Int) :
    (ct y u v).extractLsb' 16 8 ≤ (ct y' u v).extractLsb' 16 8 ∧
    (ct y u v).extractLsb' 8 8 ≤ (ct y' u v).extractLsb' 8 8 ∧
    (ct y u v).extractLsb' 0 8 ≤ (ct y' u v).extractLsb' 0 8 := by
  simp only [BitVec.le_def, ct_red, ct_green, ct_blue]
  exact ⟨clamp8_mono (by omega), clamp8_mono (by omega), clamp8_mono (by omega)⟩

/-- Red does not read `u` (R69 (e)). -/
theorem ct_red_congr (y u u' v : Int) : (ct y u v).extractLsb' 16 8 = (ct y u' v).extractLsb' 16 8 :=
  BitVec.eq_of_toNat_eq (by rw [ct_red, ct_red])

/-- Blue does not read `v` (R69 (e)). -/
theorem ct_blue_congr (y u v v' : Int) : (ct y u v).extractLsb' 0 8 = (ct y u v').extractLsb' 0 8 :=
  BitVec.eq_of_toNat_eq (by rw [ct_blue, ct_blue])

/-- Settles O14: green takes the value 0 at the origin and 1 at each of the three witnesses, which move one argument. -/
theorem transformProperties : Obligations.TransformProperties :=
  ⟨ct_alpha, ct_grey_toNat, fun _ _ u v h => ct_channels_mono h u v, ct_red_congr, ct_blue_congr,
    ⟨0, 1, 0, 0, by decide⟩, ⟨0, 0, -2, 0, by decide⟩, ⟨0, 0, 0, -3, by decide⟩,
    by decide, by decide, by decide, by decide⟩

/-! ### The command -/

/-- While BUSY, XFORM is ignored (R65, R74). -/
theorem exec_xform_of_busy {s : State} (hb : s.state = .busy) : exec .xform s = .next s :=
  if_pos hb

/-- Settles O16: outside BUSY the state XFORM leaves differs in PIXOUT alone, so that a second XFORM reads the same
operands and writes the word that stands there. -/
theorem xformWritesPixoutAlone : Obligations.XformWritesPixoutAlone := by
  intro s
  refine ⟨exec_xform_of_busy, fun hb => ⟨_, exec_xform_of_not_busy hb, rfl, ?_, ?_, ?_, ?_, ?_, ?_⟩⟩
  · exact ⟨rfl, rfl, rfl, rfl⟩
  · exact ⟨rfl, rfl, rfl, rfl, rfl, rfl, rfl⟩
  · exact ⟨rfl, fun _ => rfl⟩
  · exact ⟨rfl, fun _ _ => rfl⟩
  · exact ⟨rfl, rfl⟩
  · exact exec_xform_of_not_busy hb

end Sys2Proof.Machine
end

section
/-! PROOFS. The register transactions of spec/42_host_interface.md: HostRead (R73), HostWrite (R72), and what a running
decode makes of both (R74). -/

namespace Sys2Proof.Machine

theorem step_of_turns_cons {s : State} {t : Turn} {rest : List Turn} (h : s.turns = t :: rest) :
    step s = takeTurn t (s.withTurns rest) := by
  rw [step, h]

/-! ### HostRead -/

/-- No register holds what happens next. -/
@[simp] theorem readReg_withTurns (r : Nat) (s : State) (ts : List Turn) : readReg r (s.withTurns ts) = readReg r s :=
  rfl

/-- The numbers from 12 up are reserved and read as 0 (R73). -/
theorem readReg_of_reserved {r : Nat} (hr : 12 ≤ r) (s : State) : readReg r s = 0#32 := by
  obtain ⟨n, rfl⟩ := Nat.exists_eq_add_of_le' hr
  rfl

/-- A HostRead, in every state: HOST receives the word, and nothing else happens (R73). -/
theorem step_of_hostRead {s : State} {r : Nat} {rest : List Turn} (h : s.turns = .host (.read r) :: rest) :
    step s = .next ((s.withTurns rest).withHostData (readReg r s)) := by
  rw [step_of_turns_cons h, takeTurn, hostTurn, readReg_withTurns]

/-- Settles O26: the word is `readReg`'s, whose branches are the numbers below 12. -/
theorem hostReadReturnsTheRegister : Obligations.HostReadReturnsTheRegister := by
  intro s r rest h
  refine ⟨readReg r s, step_of_hostRead h, ?_, ?_, ?_, ?_, ?_, ?_, ?_, ?_, ?_, ?_, ?_, ?_,
    fun hr => readReg_of_reserved hr s⟩ <;> (rintro rfl; rfl)

/-! ### HostWrite -/

theorem step_of_hostWrite {s : State} {r : Nat} {d : HostWord} {rest : List Turn}
    (h : s.turns = .host (.write r d) :: rest) : step s = hostWrite r d (s.withTurns rest) :=
  step_of_turns_cons h

/-- While BUSY every HostWrite is ignored (R74). -/
theorem hostWrite_of_busy {s : State} {r : Nat} {d : HostWord} (hb : s.state = .busy) : hostWrite r d s = .next s :=
  if_pos hb

section NotBusy

variable {s : State} (hb : s.state ≠ .busy) (d : HostWord)
include hb

theorem hostWrite_cmd : hostWrite 0 d s = commandWrite d s := if_neg hb
theorem hostWrite_width : hostWrite 2 d s = .next { s with width := low16 d } := if_neg hb
theorem hostWrite_height : hostWrite 3 d s = .next { s with height := low16 d } := if_neg hb
theorem hostWrite_frameLen : hostWrite 4 d s = .next { s with frameLen := d } := if_neg hb
theorem hostWrite_outCap : hostWrite 5 d s = .next { s with outCap := d } := if_neg hb
theorem hostWrite_opy : hostWrite 8 d s = .next { s with opy := low16 d } := if_neg hb
theorem hostWrite_opu : hostWrite 9 d s = .next { s with opu := low16 d } := if_neg hb
theorem hostWrite_opv : hostWrite 10 d s = .next { s with opv := low16 d } := if_neg hb

end NotBusy

/-- Writes of the read-only registers and of the reserved numbers are ignored (R47, R72). -/
theorem hostWrite_of_not_writable {r : Nat} (hr : r ∉ [0, 2, 3, 4, 5, 8, 9, 10]) (d : HostWord) (s : State) :
    hostWrite r d s = .next s := by
  obtain ⟨-, h⟩ | ⟨-, h⟩ := hostWrite_cases r d s
  · exact h
  · simp only [List.mem_cons, List.not_mem_nil, or_false, not_or] at hr
    simpa [hr] using h

/-- A command's word executes the command (R44, R72). -/
theorem commandWrite_encode (i : Instr) (s : State) : commandWrite (encode i) s = exec i s := by
  rw [commandWrite, decode_encode]

/-- A word that is no command's is ignored (R47). -/
theorem commandWrite_of_ne_encode {d : CommandWord} (h : ∀ i, d ≠ encode i) (s : State) :
    commandWrite d s = .next s := by
  obtain ⟨i, hi, -⟩ | ⟨-, hd⟩ := commandWrite_cases d s
  · exact absurd (decode_eq_ok_iff.mp hi) (h i)
  · exact hd

/-- Settles O27: one equation of `hostWrite` for each register; the word of a command is `encode`'s. -/
theorem hostWriteStoresTheRegister : Obligations.HostWriteStoresTheRegister := by
  intro s r d rest h
  rw [step_of_hostWrite h]
  refine ⟨fun hb => hostWrite_of_busy (s := s.withTurns rest) hb, fun (hb : (s.withTurns rest).state ≠ .busy) => ?_⟩
  refine ⟨fun hr => hr ▸ hostWrite_width hb d, fun hr => hr ▸ hostWrite_height hb d,
    fun hr => hr ▸ hostWrite_frameLen hb d, fun hr => hr ▸ hostWrite_outCap hb d, fun hr => hr ▸ hostWrite_opy hb d,
    fun hr => hr ▸ hostWrite_opu hb d, fun hr => hr ▸ hostWrite_opv hb d,
    fun hr => hostWrite_of_not_writable ?_ d _, ?_, ?_, ?_⟩
  · simp only [List.mem_cons, List.not_mem_nil, or_false]
    omega
  · rintro rfl rfl; exact (hostWrite_cmd hb _).trans (commandWrite_encode .decode _)
  · rintro rfl rfl; exact (hostWrite_cmd hb _).trans (commandWrite_encode .xform _)
  · rintro rfl hdecode hxform
    refine (hostWrite_cmd hb d).trans (commandWrite_of_ne_encode (fun i => ?_) _)
    cases i with
    | decode => exact hdecode
    | xform => exact hxform

/-! ### What a turn leaves of the parameters -/

/-- CORE writes no register of HOST's, and not PIXOUT (R13 to R16, R19 to R22). -/
theorem coreTurn_keeps_parameters {s t : State} (h : coreTurn s = .next t) :
    sameParameters s t ∧ t.pixout = s.pixout := by
  obtain ⟨-, -, rfl⟩ | ⟨-, rfl⟩ := coreTurn_next h
  · simp [sameParameters]
  · simp [sameParameters]

theorem State.recordChange_keeps_parameters (s : State) (a : Nat) :
    sameParameters s (s.recordChange a) ∧ (s.recordChange a).pixout = s.pixout := by
  obtain ⟨-, h⟩ | ⟨-, -, h⟩ | ⟨-, old, x, -, -, h⟩ := s.recordChange_cases a
  all_goals simp [h, sameParameters]

/-- No transaction of HOST but a HostWrite writes a parameter, an operand or PIXOUT (R13 to R16, R19 to R22). -/
theorem hostTurn_keeps_parameters {op : HostOp} {s t : State} (h : hostTurn op s = .next t) :
    (∃ r d, op = .write r d) ∨ sameParameters s t ∧ t.pixout = s.pixout := by
  obtain ⟨r, d, rfl, -⟩ | ⟨r, -, rfl⟩ | ⟨a, b, -, -, rfl⟩ | ⟨a, -, -, rfl⟩ | ⟨p, v, -, -, -, rfl⟩ |
    ⟨p, -, -, x, rfl | rfl⟩ | ⟨n, known, -, -, rfl⟩ | ⟨n, known, -, -, rfl⟩ := hostTurn_next h
  · exact .inl ⟨r, d, rfl⟩
  all_goals exact .inr (by simp [sameParameters, State.recordChange_keeps_parameters])

/-- While BUSY no transaction of HOST does, a HostWrite being ignored (R74). -/
theorem hostTurn_of_busy_keeps_parameters {op : HostOp} {s t : State} (hb : s.state = .busy)
    (h : hostTurn op s = .next t) : sameParameters s t ∧ t.pixout = s.pixout := by
  obtain ⟨r, d, rfl⟩ | hkeep := hostTurn_keeps_parameters h
  · cases (hostWrite_of_busy hb).symm.trans h
    simp [sameParameters]
  · exact hkeep

/-- Settles O29: a step while BUSY is CORE's, which writes no parameter, or HOST's, whose writes are ignored. -/
theorem parametersAreConstantWhileBusy : Obligations.ParametersAreConstantWhileBusy := by
  refine ⟨fun s r d rest hb h => (step_of_hostWrite h).trans (hostWrite_of_busy (s := s.withTurns rest) hb),
    fun s r rest _ h => step_of_hostRead h, fun s t hb hreset hstep => ?_,
    fun s d rest hb h => ⟨_, (step_of_hostWrite h).trans (hostWrite_width (s := s.withTurns rest) hb d), rfl⟩⟩
  obtain ⟨-, hcore⟩ | ⟨rest, -, hcore⟩ | ⟨op, rest, -, hhost⟩ | ⟨rest, hturns, -⟩ := step_next hstep
  · exact coreTurn_keeps_parameters hcore
  · exact coreTurn_keeps_parameters (s := s.withTurns rest) hcore
  · exact hostTurn_of_busy_keeps_parameters (s := s.withTurns rest) hb hhost
  · exact absurd hturns (hreset rest)

end Sys2Proof.Machine
end

section
/-! PROOFS. The three faults of DECODE (spec/60_exceptions.md R80 to R85): which of them is raised, and what fault entry
writes. -/

namespace Sys2Proof.Machine

/-! ### The fault that is raised -/

/-- Outside BUSY, DECODE completes with ERR as validation decides it (R50, R51). -/
theorem exec_decode_err {s : State} (hb : s.state ≠ .busy) : ∃ t, exec .decode s = .next t ∧ t.err = validate s := by
  cases hv : validate s with
  | none => exact ⟨_, exec_decode_of_valid hb hv, rfl⟩
  | some e => exact ⟨_, exec_decode_of_invalid hb hv, rfl⟩

/-- The first check of R84 comes before the two others, so that R81's condition is unqualified. -/
theorem validate_eq_invalidDimensions_iff (s : State) :
    validate s = some .invalidDimensions ↔
      s.dimW ≤ 0 ∨ s.dimH ≤ 0 ∨ s.dimW % 2 = 1 ∨ s.dimH % 2 = 1 := by
  simp only [validate]
  split_ifs with hd
  · exact iff_of_true rfl hd
  all_goals exact iff_of_false (by simp) hd

/-- The second check of R84 is reached under legal dimensions alone (R82). -/
theorem validate_eq_bufferTooSmall_iff (s : State) :
    validate s = some .bufferTooSmall ↔ s.legalDims ∧ ¬ s.frameLongEnough := by
  rw [validate_eq_ite]
  split_ifs with hd hl hc
  · exact iff_of_false (by simp) fun h => h.2 hl
  · exact iff_of_false (by simp) fun h => h.2 hl
  · exact iff_of_true rfl ⟨hd, hl⟩
  · exact iff_of_false (by simp) fun h => hd h.1

/-- The last check of R84 is reached where both others pass (R83). -/
theorem validate_eq_outputSizeMismatch_iff (s : State) :
    validate s = some .outputSizeMismatch ↔ s.legalDims ∧ s.frameLongEnough ∧ ¬ s.capacityExact := by
  rw [validate_eq_ite]
  split_ifs with hd hl hc
  · exact iff_of_false (by simp) fun h => h.2.2 hc
  · exact iff_of_true rfl ⟨hd, hl, hc⟩
  · exact iff_of_false (by simp) fun h => hl h.2.1
  · exact iff_of_false (by simp) fun h => hd h.1

/-- Settles O19: ERR is what validation answers, and its first check is R81's. -/
theorem invalidDimensionsExactly : Obligations.InvalidDimensionsExactly := by
  intro s hb
  obtain ⟨t, hexec, herr⟩ := exec_decode_err hb
  exact ⟨t, hexec, herr ▸ validate_eq_invalidDimensions_iff s⟩

/-- Under legal dimensions N is a multiple of 4, being the product of two even numbers (R82). -/
theorem State.legalDims.four_dvd {s : State} (h : s.legalDims) : 4 ∣ s.dimW * s.dimH := by
  obtain ⟨-, -, hw, hh⟩ := h
  exact mul_dvd_mul (Int.dvd_of_emod_eq_zero hw) (Int.dvd_of_emod_eq_zero hh)

/-- Settles O20: ERR is what validation answers; the bound is 3N/2 because N is a multiple of 4. -/
theorem bufferTooSmallExactly : Obligations.BufferTooSmallExactly := by
  intro s hb
  obtain ⟨t, hexec, herr⟩ := exec_decode_err hb
  refine ⟨t, hexec, ?_, fun hd => ?_⟩
  · rw [herr, validate_eq_bufferTooSmall_iff, State.frameLongEnough, not_le]
  · have hN := hd.four_dvd
    omega

/-- Settles O21: ERR is what validation answers when its first two checks pass. -/
theorem outputSizeMismatchExactly : Obligations.OutputSizeMismatchExactly := by
  intro s hb
  obtain ⟨t, hexec, herr⟩ := exec_decode_err hb
  exact ⟨t, hexec, herr ▸ validate_eq_outputSizeMismatch_iff s⟩

/-! ### Fault entry -/

/-- The word of STATUS after a fault (R45, R80). -/
theorem statusWord_raise (s : State) (e : FaultCode) :
    (s.raise e).statusWord = 0#28 ++ errCode (some e) ++ 3#2 := rfl

/-- Settles O22: fault entry is `beginDecode`, which clears ERR, I and K, and then `raise`, which writes ERR and STATE. -/
theorem faultEntryWritesStatusAlone : Obligations.FaultEntryWritesStatusAlone := by
  intro s e hb hv
  refine ⟨_, exec_decode_of_invalid hb hv, rfl, rfl, rfl, rfl, ⟨rfl, rfl, rfl, rfl, rfl, rfl, rfl⟩, rfl, rfl, rfl,
    ⟨rfl, rfl⟩, ?_⟩
  rw [statusWord_raise]
  cases e <;> rfl

end Sys2Proof.Machine
end

section
/-! PROOFS. The state after reset (spec/70_reset_and_hazards.md R93): its registers, its memories, and the two commands
given to a core that nothing has programmed. -/

namespace Sys2Proof.Machine

theorem State.reset_not_busy : State.reset.state ≠ .busy := nofun

/-- Every register number reads 0, those of the twelve registers because each holds 0, STATUS because IDLE with NONE is
the word 0, the reserved ones in every state (R73, R93). -/
theorem readReg_reset (r : Nat) : readReg r State.reset = 0#32 := by
  by_cases hr : r < 12
  · interval_cases r <;> rfl
  · exact readReg_of_reserved (not_lt.mp hr) State.reset

theorem Memory.read_freshBuffer (w a : Nat) : Memory.read (freshBuffer w).cells a = none := rfl

/-- A core without a width fails safely: the first check of R84 stops it, whatever the other parameters hold (R81). -/
theorem validate_of_width_zero {s : State} (h : s.width = 0#16) : validate s = some .invalidDimensions := by
  have hdim : s.dimW = 0 := by rw [State.dimW, h, sval16, BitVec.toInt_zero]
  exact (validate_eq_invalidDimensions_iff s).mpr (.inl hdim.le)

/-- Outside BUSY, DECODE on a core without a width shows FAULT with InvalidDimensions in STATUS (R45, R85). -/
theorem exec_decode_of_width_zero {s : State} (hb : s.state ≠ .busy) (h : s.width = 0#16) :
    ∃ t, exec .decode s = .next t ∧ t.statusWord = 0x00000007#32 :=
  ⟨_, exec_decode_of_invalid hb (validate_of_width_zero h), statusWord_raise _ _⟩

/-- Black without chroma leaves the alpha byte alone (R69 (c)). -/
theorem ct_zero : ct 0 0 0 = 0xFF000000#32 :=
  BitVec.eq_of_toNat_eq (by rw [ct_grey_toNat, clamp8_of_mem le_rfl (by decide)]; rfl)

/-- Settles O44: reset leaves every register 0 and both buffers fresh; DECODE then fails for want of a width, and XFORM
transforms three zero operands. -/
theorem resetValues : Obligations.ResetValues := by
  refine ⟨rfl, rfl, readReg_reset, fun a => ⟨Memory.read_freshBuffer 8 a, Memory.read_freshBuffer 32 a⟩,
    exec_decode_of_width_zero State.reset_not_busy rfl, ?_⟩
  exact ⟨_, exec_xform_of_not_busy State.reset_not_busy, ct_zero⟩

end Sys2Proof.Machine
end

section
/-! PROOFS. The command word and the command map once more (spec/30_encoding.md R43, R44): decode against encode. -/

namespace Sys2Proof

/-- The fields of a word put together from two fields are those fields (R43). -/
theorem cmdFields_cmdWord (c : CmdWord) : cmdFields (cmdWord c) = c := by
  obtain ⟨zero, op⟩ := c
  simp only [cmdFields, cmdWord, CmdWord.mk.injEq]
  exact ⟨BitVec.extractLsb'_append_eq_left, BitVec.extractLsb'_append_eq_right⟩

/-- The decoder selects a command exactly on the fields of that command's row (R44). -/
theorem decode_eq_ok_iff_cmdFields {d : CommandWord} {i : Instr} :
    decode d = .ok i ↔ cmdFields d = encodeFields i where
  mp := cmdFields_eq_of_decode_eq_ok
  mpr h := decode_eq_ok_iff.mpr (by rw [← cmdWord_cmdFields d, h, encode])

/-- The checks of CMDW pass on the fields of the two rows of the command map, and on no others (R43, R44). -/
theorem CmdWord.wf_iff (c : CmdWord) : c.wf = true ↔ ∃ i, c = encodeFields i := by
  obtain ⟨zero, op⟩ := c
  simp only [CmdWord.wf, CmdWord.zeroOk, CmdWord.opOk, Bool.and_eq_true, Bool.or_eq_true, beq_iff_eq]
  constructor
  · rintro ⟨rfl, rfl | rfl⟩
    · exact ⟨.decode, rfl⟩
    · exact ⟨.xform, rfl⟩
  · rintro ⟨i, hi⟩
    cases i with
    | decode => cases hi; exact ⟨rfl, .inl rfl⟩
    | xform => cases hi; exact ⟨rfl, .inr rfl⟩

/-- Settles O2: the decoder is the inverse of `encode` (`decode_eq_ok_iff`), the fields lose no bit, and the checks of
CMDW are those of the command map. -/
theorem decodeAndEncodeAgree : Obligations.DecodeAndEncodeAgree := by
  refine ⟨fun i _ => decode_encode i, fun d i h => decode_eq_ok_iff.mp h, cmdWord_cmdFields, cmdFields_cmdWord,
    fun d => (CmdWord.wf_iff _).trans (exists_congr fun i => decode_eq_ok_iff_cmdFields.symm)⟩

/-- The table's reading of a 32-bit number is the decoder's of that word (R43, R44). -/
theorem decodeTableWord_eq_some_iff {w : Nat} {i : Instr} (hw : w < 2 ^ 32) :
    decodeTableWord 32 w = some i ↔ w = (encode i).toNat := by
  rw [decodeTableWord, if_pos le_rfl, Nat.mod_eq_of_lt hw]
  have hword : BitVec.ofNat 32 w = encode i ↔ w = (encode i).toNat := by
    rw [← BitVec.toNat_inj, BitVec.toNat_ofNat, Nat.mod_eq_of_lt hw]
  rw [← hword, ← decode_eq_ok_iff]
  cases decode (BitVec.ofNat 32 w) <;> simp

/-- A number that is no command's word is refused (R44, R47). -/
theorem decodeTableWord_eq_none {w : Nat} (hw : w < 2 ^ 32) (hne : w ≠ 1 ∧ w ≠ 2) : decodeTableWord 32 w = none := by
  rw [Option.eq_none_iff_forall_ne_some]
  intro i h
  have hi := (decodeTableWord_eq_some_iff hw).mp h
  cases i with
  | decode => exact hne.1 hi
  | xform => exact hne.2 hi

/-- Settles O3: the first two words are those of the two commands, and the others are neither. -/
theorem tableWordsDecode : Obligations.TableWordsDecode := by
  refine ⟨(decodeTableWord_eq_some_iff (by decide)).mpr rfl, (decodeTableWord_eq_some_iff (by decide)).mpr rfl, ?_⟩
  refine ⟨?_, ?_, ?_, ?_⟩ <;> exact decodeTableWord_eq_none (by decide) (by decide)

end Sys2Proof
end

section
/-! PROOFS. What a step does around a command, and when CORE moves (spec/10_state.md R10, spec/42_host_interface.md R72,
R76). -/

namespace Sys2Proof.Machine

/-- While BUSY both commands are ignored (R50 (b), R65, R74). -/
theorem exec_of_busy {s : State} (hb : s.state = .busy) : ∀ i, exec i s = .next s
  | .decode => if_pos hb
  | .xform => exec_xform_of_busy hb

/-- A command's word written to CMD is that command, in every state: what HostWrite ignores while BUSY the command
ignores too (R72, R74). -/
theorem hostWrite_encode (i : Instr) (s : State) : hostWrite 0 (encode i) s = exec i s := by
  by_cases hb : s.state = .busy
  · rw [hostWrite_of_busy hb, exec_of_busy hb]
  · rw [hostWrite_cmd hb, commandWrite_encode]

/-- A word that is no command's, written to CMD, is ignored in every state (R47, R74). -/
theorem hostWrite_of_ne_encode {d : CommandWord} (h : ∀ i, d ≠ encode i) (s : State) : hostWrite 0 d s = .next s := by
  by_cases hb : s.state = .busy
  · exact hostWrite_of_busy hb
  · rw [hostWrite_cmd hb, commandWrite_of_ne_encode h]

/-- Settles O4: 1 and 2 are the words of the two commands, so that the word written is no command's. -/
theorem reservedCommandsAreIgnored : Obligations.ReservedCommandsAreIgnored := by
  intro s d rest hdecode hxform hturns
  rw [step_of_hostWrite hturns]
  refine hostWrite_of_ne_encode (fun i => ?_) _
  cases i with
  | decode => exact hdecode
  | xform => exact hxform

/-- Settles O5: the word written is the command's, and its write is the command's meaning. -/
theorem stepRunsTheCommandWritten : Obligations.StepRunsTheCommandWritten := by
  intro s d rest i hturns hdecode _
  rw [step_of_hostWrite hturns, decode_eq_ok_iff.mp hdecode, hostWrite_encode]

theorem coreTurn_of_busy {s : State} (hb : s.state = .busy) : coreTurn s = blockStep s := if_pos hb

theorem coreTurn_of_not_busy {s : State} (hb : s.state ≠ .busy) : coreTurn s = .next s := if_neg hb

/-- A listed turn of CORE. -/
theorem step_of_core {s : State} {rest : List Turn} (h : s.turns = .core :: rest) :
    step s = coreTurn (s.withTurns rest) := step_of_turns_cons h

/-- Settles O6: listed or not, CORE's turn is `coreTurn`, whose two branches are BUSY and the rest. -/
theorem coreMovesOnlyWhileBusy : Obligations.CoreMovesOnlyWhileBusy := by
  intro s
  refine ⟨fun h hb => ?_, fun h hb => ?_, fun rest h hb => ?_, fun rest h hb => ?_⟩
  · rw [step_of_no_turns h, coreTurn_of_busy hb]
  · rw [step_of_no_turns h, coreTurn_of_not_busy hb]
  · rw [step_of_core h, coreTurn_of_busy (s := s.withTurns rest) hb]
  · rw [step_of_core h, coreTurn_of_not_busy (s := s.withTurns rest) hb]

end Sys2Proof.Machine
end

section
/-! PROOFS. The encodings of samples (spec/30_encoding.md R40, R41) and the division of spec/41_color_transform.md R71. -/

namespace Sys2Proof.Machine

theorem rebias_eq (b : Byte) : rebias b = (b.toNat : Int) - 128 := rfl

/-- Inverting bit 7 adds 128, the carry out of bit 7 being dropped. -/
theorem xor_bit7_eq_add (b : Byte) : b ^^^ 0x80#8 = b + 0x80#8 := by
  revert b; decide

/-- The signed value of a byte whose bit 7 is inverted is the byte less 128 (R41). -/
theorem toInt_xor_bit7 (b : Byte) : (b ^^^ 0x80#8).toInt = rebias b := by
  have hb := b.isLt
  rw [xor_bit7_eq_add, rebias_eq, BitVec.toInt_eq_toNat_cond, BitVec.toNat_add, BitVec.toNat_ofNat]
  split <;> omega

/-- Settles O9: the range is that of a byte, and the bit-level view is the addition of 128. -/
theorem samplesAreReadAsEncoded : Obligations.SamplesAreReadAsEncoded := by
  intro b
  have hb := b.isLt
  have hr := rebias_eq b
  exact ⟨rfl, hr, by omega, by omega, toInt_xor_bit7 b⟩

/-- On the nominal numerators 67109 / 2^26 is close enough above 1 / 1000: with n = 1000 q + r the product is 2^26 q, plus
136 q + 67109 r, which is below 2^26 while q ≤ 226. -/
theorem mul_shiftRight_eq_div_thousand {n : Nat} (hn : n ≤ 226816) : (n * 67109) >>> 26 = n / 1000 := by
  rw [Nat.shiftRight_eq_div_pow]
  omega

/-- Settles O15: `tq` on a natural number is floor division, and `tq` is odd. -/
theorem divisionByAThousandIsMultiplyAndShift : Obligations.DivisionByAThousandIsMultiplyAndShift := by
  intro n hn
  have htq : tq (n : Int) 1000 = ((n * 67109) >>> 26 : Nat) := by
    rw [mul_shiftRight_eq_div_thousand hn, tq_eq_natAbs_div_of_nonneg (Int.natCast_nonneg n), Int.natAbs_natCast]
  exact ⟨htq, by rw [tq_neg, htq]⟩

end Sys2Proof.Machine
end

section
/-! PROOFS. Host reads of registers among the turns of CORE (spec/42_host_interface.md R76): an outcome is carried over a
change of what only HOST sees. -/

namespace Sys2Proof.Machine

/-- Go on from a next state; a stop stays the stop it is. -/
def andThen (o : Host.Outcome State Fault Refusal) (f : State → Host.Outcome State Fault Refusal) :
    Host.Outcome State Fault Refusal :=
  match o with
  | .next t => f t
  | .fault r => .fault r
  | .refused r => .refused r

/-- The same outcome, its next state changed by `f`. -/
def mapNext (f : State → State) (o : Host.Outcome State Fault Refusal) : Host.Outcome State Fault Refusal :=
  andThen o fun t => .next (f t)

@[simp] theorem andThen_next (t : State) (f : State → Host.Outcome State Fault Refusal) : andThen (.next t) f = f t := rfl
@[simp] theorem andThen_fault (r : Fault) (f : State → Host.Outcome State Fault Refusal) :
    andThen (.fault r) f = .fault r := rfl
@[simp] theorem andThen_refused (r : Refusal) (f : State → Host.Outcome State Fault Refusal) :
    andThen (.refused r) f = .refused r := rfl
@[simp] theorem mapNext_next (f : State → State) (t : State) : mapNext f (.next t) = .next (f t) := rfl
@[simp] theorem mapNext_fault (f : State → State) (r : Fault) : mapNext f (.fault r) = .fault r := rfl
@[simp] theorem mapNext_refused (f : State → State) (r : Refusal) : mapNext f (.refused r) = .refused r := rfl

/-- A run of steps, taken apart at its first. -/
theorem steps_succ (n : Nat) (s : State) : steps (n + 1) s = andThen (step s) (steps n) := by
  rw [steps]
  cases step s <;> rfl

/-- A run of CORE's turns, taken apart at its first. -/
theorem coreSteps_succ_andThen (n : Nat) (s : State) : coreSteps (n + 1) s = andThen (coreTurn s) (coreSteps n) := by
  rw [coreSteps]
  cases coreTurn s <;> rfl

/-- A change of the two fields that CORE does not see: what happens next, and the word HOST holds (logs 1 and 3). Both
`State.withTurns` and `State.withHostData` are such changes, by definition. -/
def State.mapHostSide (g : List Turn → List Turn) (h : HostWord → HostWord) (s : State) : State :=
  { s with turns := g s.turns, hostData := h s.hostData }

theorem State.finishIfDone_mapHostSide (g : List Turn → List Turn) (h : HostWord → HostWord) (s : State) :
    (s.mapHostSide g h).finishIfDone = s.finishIfDone.mapHostSide g h := by
  unfold State.finishIfDone
  rw [apply_ite (State.mapHostSide g h)]
  rfl

/-- What CORE does neither depends on those two fields nor changes them. -/
theorem coreTurn_mapHostSide (g : List Turn → List Turn) (h : HostWord → HostWord) (s : State) :
    coreTurn (s.mapHostSide g h) = mapNext (State.mapHostSide g h) (coreTurn s) := by
  simp only [coreTurn, blockStep, apply_ite (mapNext _), mapNext_next, mapNext_refused,
    ← State.finishIfDone_mapHostSide]
  rfl

theorem coreTurn_withTurns (s : State) (ts : List Turn) :
    coreTurn (s.withTurns ts) = mapNext (·.withTurns ts) (coreTurn s) := coreTurn_mapHostSide (fun _ => ts) id s

theorem coreTurn_withHostData (s : State) (d : HostWord) :
    coreTurn (s.withHostData d) = mapNext (·.withHostData d) (coreTurn s) := coreTurn_mapHostSide id (fun _ => d) s

/-- The same of any number of CORE's turns. -/
theorem coreSteps_withHostData (n : Nat) (s : State) (d : HostWord) :
    coreSteps n (s.withHostData d) = mapNext (·.withHostData d) (coreSteps n s) := by
  induction n generalizing s with
  | zero => rfl
  | succ n ih =>
    rw [coreSteps_succ_andThen, coreSteps_succ_andThen, coreTurn_withHostData]
    cases coreTurn s with
    | next t => exact ih t
    | fault r => rfl
    | refused r => rfl

/-- A run over turns of CORE and host reads of registers is the run of the turns of CORE, but for the word HOST holds
(R76): by induction on the list, a read only changing the state CORE goes on from in that word. -/
theorem steps_of_quiet_turns (ts : List Turn) (hquiet : ∀ c ∈ ts, c.isQuiet = true) (s : State) :
    ∃ d, steps ts.length (s.withTurns ts) =
      mapNext (·.withHostData d) (coreSteps (coreTurns ts) (s.withTurns [])) := by
  induction ts generalizing s with
  | nil => exact ⟨s.hostData, rfl⟩
  | cons c ts ih =>
    obtain ⟨hc, hts⟩ := List.forall_mem_cons.mp hquiet
    rw [List.length_cons, steps_succ]
    match c, hc with
    | .core, _ =>
      rw [step_of_core (s.withTurns_turns _), coreTurns, coreSteps_succ_andThen, coreTurn_withTurns s []]
      change ∃ d, andThen (coreTurn (s.withTurns ts)) _ = _
      rw [coreTurn_withTurns s ts]
      cases coreTurn s with
      | next t => exact ih hts t
      | fault r => exact ⟨0#32, rfl⟩
      | refused r => exact ⟨0#32, rfl⟩
    | .host (.read r), _ =>
      obtain ⟨d, hd⟩ := ih hts (s.withHostData (readReg r s))
      refine ⟨d, ?_⟩
      rw [step_of_hostRead (s.withTurns_turns _), coreTurns]
      refine hd.trans ?_
      change mapNext _ (coreSteps _ ((s.withTurns []).withHostData _)) = _
      rw [coreSteps_withHostData]
      cases coreSteps (coreTurns ts) (s.withTurns []) <;> rfl

/-- Settles O43: the three outcomes of the turns of CORE, each carried over by `steps_of_quiet_turns`. -/
theorem hostReadsDoNotDisturbTheCore : Obligations.HostReadsDoNotDisturbTheCore := by
  intro s ts hquiet
  obtain ⟨d, hd⟩ := steps_of_quiet_turns ts hquiet s
  cases hc : coreSteps (coreTurns ts) (s.withTurns []) with
  | next v => exact ⟨d, by rw [hd, hc]; rfl⟩
  | fault r => exact by rw [hd, hc]; rfl
  | refused r => exact by rw [hd, hc]; rfl

end Sys2Proof.Machine
end

section
/-! PROOFS. The command DECODE at its start (spec/40_frame_decoder.md R50, R51) and the sizes of a legal frame
(spec/00_scope.md R4). -/

namespace Sys2Proof.Machine

/-- Validation passes exactly where the three conditions of R81 to R83 hold. -/
theorem validate_eq_none_iff (s : State) :
    validate s = none ↔ s.legalDims ∧ s.frameLongEnough ∧ s.capacityExact := by
  rw [validate_eq_ite]
  split_ifs with hd hl hc
  · exact iff_of_true rfl ⟨hd, hl, hc⟩
  · exact iff_of_false (by simp) fun ⟨_, _, h⟩ => hc h
  · exact iff_of_false (by simp) fun ⟨_, h, _⟩ => hl h
  · exact iff_of_false (by simp) fun ⟨h, _, _⟩ => hd h

/-- Settles O18: the state DECODE leaves is `beginDecode`, then `enterBusy`, and neither writes a parameter or a buffer. -/
theorem decodeStartsOnValidRegisters : Obligations.DecodeStartsOnValidRegisters := by
  intro s hb hd hl hc
  refine ⟨_, exec_decode_of_valid hb ((validate_eq_none_iff s).mpr ⟨hd, hl, hc⟩), rfl, rfl, rfl, rfl, ?_, rfl, ?_, ?_, ?_⟩
  · exact ⟨rfl, rfl, rfl, rfl, rfl, rfl, rfl⟩
  · exact ⟨rfl, fun _ => rfl⟩
  · exact ⟨rfl, fun _ _ => rfl⟩
  · exact ⟨rfl, rfl⟩

/-- Settles O23: both outcomes of DECODE write STATE, ERR, I and K afresh, and validation reads none of them. -/
theorem decodeForgetsThePreviousOutcome : Obligations.DecodeForgetsThePreviousOutcome := by
  intro s st e i k hb hst
  have hval : validate { s with state := st, err := e, i := i, k := k } = validate s := rfl
  cases hv : validate s with
  | none => exact (exec_decode_of_valid hst (hval.trans hv)).trans (exec_decode_of_valid hb hv).symm
  | some f => exact (exec_decode_of_invalid hst (hval.trans hv)).trans (exec_decode_of_invalid hb hv).symm

/-- Settles O24: while BUSY every command is ignored. -/
theorem decodeWhileBusyDoesNothing : Obligations.DecodeWhileBusyDoesNothing := fun _ hb => exec_of_busy hb .decode

/-- Settles O25: a 16-bit signed dimension is below 32768, and an even one below 32767. -/
theorem legalSizesFitTheIndexRegisters : Obligations.LegalSizesFitTheIndexRegisters := by
  intro s ⟨hw, hh, hweven, hheven⟩
  have hwlt := s.dimW_lt
  have hhlt := s.dimH_lt
  have hN : s.frameN ≤ 32766 * 32766 :=
    Nat.mul_le_mul (by unfold State.frameW; omega) (by unfold State.frameH; omega)
  refine ⟨by omega, by omega, ?_, hN, by omega⟩
  rw [State.frameN, Nat.cast_mul, State.frameW, State.frameH, Int.toNat_of_nonneg hw.le, Int.toNat_of_nonneg hh.le]

end Sys2Proof.Machine
end

section
/-! PROOFS. What a step can write (spec/10_state.md section 2): the registers HOST programs, PIXOUT, STATUS. Everything a
HostWrite can do, a command among it, is said once, in `hostWrite_next`. -/

namespace Sys2Proof.Machine

/-! ### Everything a HostWrite can do -/

/-- A HostWrite of a register other than CMD, outside BUSY (R72): the register of that number takes the word, or its low
half; a number that is not writable names none. -/
def State.writeReg (r : Nat) (d : HostWord) (s : State) : State :=
  { s with
    width := if r = 2 then low16 d else s.width
    height := if r = 3 then low16 d else s.height
    frameLen := if r = 4 then d else s.frameLen
    outCap := if r = 5 then d else s.outCap
    opy := if r = 8 then low16 d else s.opy
    opu := if r = 9 then low16 d else s.opu
    opv := if r = 10 then low16 d else s.opv }

theorem State.writeReg_withTurns (r : Nat) (d : HostWord) (s : State) (ts : List Turn) :
    (s.withTurns ts).writeReg r d = (s.writeReg r d).withTurns ts := rfl

theorem hostWrite_of_ne_zero {r : Nat} {s : State} (hb : s.state ≠ .busy) (hr : r ≠ 0) (d : HostWord) :
    hostWrite r d s = .next (s.writeReg r d) := by
  obtain ⟨h, -⟩ | ⟨-, ⟨h, -⟩ | h⟩ := hostWrite_cases r d s
  · exact absurd h hb
  · exact absurd h hr
  · obtain ⟨rfl, h⟩ | ⟨rfl, h⟩ | ⟨rfl, h⟩ | ⟨rfl, h⟩ | ⟨rfl, h⟩ | ⟨rfl, h⟩ | ⟨rfl, h⟩ | ⟨hr', h⟩ := h
    case inr.inr.inr.inr.inr.inr.inr =>
      simp only [List.mem_cons, List.not_mem_nil, or_false, not_or] at hr'
      simp [h, State.writeReg, hr']
    all_goals exact h

/-- Everything a command can do (R50, R65): one alternative per outcome. -/
theorem exec_cases (i : Instr) (s : State) :
    (s.state = .busy ∧ exec i s = .next s) ∨
    (s.state ≠ .busy ∧ i = .decode ∧ ∃ e, validate s = some e ∧ exec i s = .next (s.beginDecode.raise e)) ∨
    (s.state ≠ .busy ∧ i = .decode ∧ validate s = none ∧
      exec i s = .next (s.beginDecode.enterBusy.withPixFrame (some s.frameN))) ∨
    (s.state ≠ .busy ∧ i = .xform ∧
      exec i s = .next (s.withPixout (ct (sval16 s.opy) (sval16 s.opu) (sval16 s.opv)))) := by
  by_cases hb : s.state = .busy
  · exact .inl ⟨hb, exec_of_busy hb i⟩
  · cases i with
    | decode =>
      cases hv : validate s with
      | some e => exact .inr (.inl ⟨hb, rfl, e, rfl, exec_decode_of_invalid hb hv⟩)
      | none => exact .inr (.inr (.inl ⟨hb, rfl, rfl, exec_decode_of_valid hb hv⟩))
    | xform => exact .inr (.inr (.inr ⟨hb, rfl, exec_xform_of_not_busy hb⟩))

/-- Everything a HostWrite can leave (R47, R50, R65, R72, R74): nothing changed; a register written; or, where it wrote a
command's word to CMD, a faulting DECODE, an accepted DECODE or an XFORM. It always answers a next state. -/
theorem hostWrite_outcome (r : Nat) (d : HostWord) (s : State) : ∃ t, hostWrite r d s = .next t ∧
    (t = s ∨
      (s.state ≠ .busy ∧ r ≠ 0 ∧ t = s.writeReg r d) ∨
      (s.state ≠ .busy ∧ r = 0 ∧ d = encode .decode ∧ ∃ e, validate s = some e ∧ t = s.beginDecode.raise e) ∨
      (s.state ≠ .busy ∧ r = 0 ∧ d = encode .decode ∧ validate s = none ∧
        t = s.beginDecode.enterBusy.withPixFrame (some s.frameN)) ∨
      (s.state ≠ .busy ∧ r = 0 ∧ d = encode .xform ∧
        t = s.withPixout (ct (sval16 s.opy) (sval16 s.opu) (sval16 s.opv)))) := by
  by_cases hb : s.state = .busy
  · exact ⟨s, hostWrite_of_busy hb, .inl rfl⟩
  by_cases hr : r = 0
  · subst hr
    by_cases hd : ∃ i, d = encode i
    · obtain ⟨i, rfl⟩ := hd
      obtain ⟨hb', -⟩ | ⟨-, rfl, e, hv, h⟩ | ⟨-, rfl, hv, h⟩ | ⟨-, rfl, h⟩ := exec_cases i s
      · exact absurd hb' hb
      · exact ⟨_, (hostWrite_encode _ _).trans h, .inr (.inr (.inl ⟨hb, rfl, rfl, e, hv, rfl⟩))⟩
      · exact ⟨_, (hostWrite_encode _ _).trans h, .inr (.inr (.inr (.inl ⟨hb, rfl, rfl, hv, rfl⟩)))⟩
      · exact ⟨_, (hostWrite_encode _ _).trans h, .inr (.inr (.inr (.inr ⟨hb, rfl, rfl, rfl⟩)))⟩
    · exact ⟨s, hostWrite_of_ne_encode (not_exists.mp hd) s, .inl rfl⟩
  · exact ⟨_, hostWrite_of_ne_zero hb hr d, .inr (.inl ⟨hb, hr, rfl⟩)⟩

/-- `hostWrite_outcome` for the state a HostWrite is known to leave. -/
theorem hostWrite_next {r : Nat} {d : HostWord} {s t : State} (h : hostWrite r d s = .next t) :
    t = s ∨
      (s.state ≠ .busy ∧ r ≠ 0 ∧ t = s.writeReg r d) ∨
      (s.state ≠ .busy ∧ r = 0 ∧ d = encode .decode ∧ ∃ e, validate s = some e ∧ t = s.beginDecode.raise e) ∨
      (s.state ≠ .busy ∧ r = 0 ∧ d = encode .decode ∧ validate s = none ∧
        t = s.beginDecode.enterBusy.withPixFrame (some s.frameN)) ∨
      (s.state ≠ .busy ∧ r = 0 ∧ d = encode .xform ∧
        t = s.withPixout (ct (sval16 s.opy) (sval16 s.opu) (sval16 s.opv))) := by
  obtain ⟨u, hu, hcases⟩ := hostWrite_outcome r d s
  cases h.symm.trans hu
  exact hcases

/-- Settles O28: a HostWrite of a writable register, then the HostRead of it. -/
theorem writeThenReadKeepsTheWidth : Obligations.WriteThenReadKeepsTheWidth := by
  intro s r d rest hb hturns
  have hrun (hr : r ≠ 0) : steps 2 s =
      .next (((s.writeReg r d).withTurns rest).withHostData (readReg r (s.writeReg r d))) := by
    rw [steps_succ, step_of_hostWrite hturns,
      hostWrite_of_ne_zero (s := s.withTurns (.host (.read r) :: rest)) hb hr, andThen_next, State.writeReg_withTurns,
      steps_succ, step_of_hostRead (State.withTurns_turns _ _)]
    rfl
  constructor
  · intro hr
    refine ⟨_, hrun (by rintro rfl; simp at hr), ?_, rfl⟩
    simp only [List.mem_cons, List.not_mem_nil, or_false] at hr
    obtain rfl | rfl | rfl | rfl | rfl := hr
    all_goals rfl
  · intro hr
    refine ⟨_, hrun (by rintro rfl; simp at hr), ?_, rfl⟩
    simp only [List.mem_cons, List.not_mem_nil, or_false] at hr
    obtain rfl | rfl := hr
    all_goals rfl

/-! ### PIXOUT -/

/-- Outside XFORM a HostWrite leaves PIXOUT (R22). -/
theorem hostWrite_keeps_pixout {r : Nat} {d : HostWord} {s t : State} (h : hostWrite r d s = .next t) :
    t.pixout = s.pixout ∨ s.state ≠ .busy ∧ r = 0 ∧ d = encode .xform := by
  obtain rfl | ⟨-, -, rfl⟩ | ⟨-, -, -, e, -, rfl⟩ | ⟨-, -, -, -, rfl⟩ | ⟨hb, hr, hd, -⟩ := hostWrite_next h
  case inr.inr.inr.inr => exact .inr ⟨hb, hr, hd⟩
  all_goals exact .inl rfl

/-- Settles O17: neither CORE nor a transaction of HOST other than the write of XFORM's word writes PIXOUT. -/
theorem onlyXformAndResetWritePixout : Obligations.OnlyXformAndResetWritePixout := by
  intro s t hstep
  obtain ⟨-, hcore⟩ | ⟨rest, -, hcore⟩ | ⟨op, rest, hturns, hhost⟩ | ⟨rest, hturns, -⟩ := step_next hstep
  · exact .inl (coreTurn_keeps_parameters hcore).2
  · exact .inl (coreTurn_keeps_parameters hcore).2
  · obtain ⟨r, d, rfl⟩ | ⟨-, hkeep⟩ := hostTurn_keeps_parameters hhost
    · obtain hkeep | ⟨hb, rfl, rfl⟩ := hostWrite_keeps_pixout hhost
      · exact .inl hkeep
      · exact .inr (.inr ⟨hb, rest, hturns⟩)
    · exact .inl hkeep
  · exact .inr (.inl ⟨rest, hturns⟩)

/-! ### The registers HOST programs -/

/-- A HostWrite changes a parameter or operand register only under that register's own number (R13 to R16, R19 to
R21). -/
theorem hostWrite_keeps_parameters {r : Nat} {d : HostWord} {s t : State} (h : hostWrite r d s = .next t) :
    (t.width = s.width ∨ r = 2) ∧ (t.height = s.height ∨ r = 3) ∧ (t.frameLen = s.frameLen ∨ r = 4) ∧
      (t.outCap = s.outCap ∨ r = 5) ∧ (t.opy = s.opy ∨ r = 8) ∧ (t.opu = s.opu ∨ r = 9) ∧
      (t.opv = s.opv ∨ r = 10) := by
  have hite {α : Type} (n : Nat) (x y : α) : (if r = n then x else y) = y ∨ r = n :=
    (em (r = n)).elim .inr fun hr => .inl (if_neg hr)
  obtain rfl | ⟨-, -, rfl⟩ | ⟨-, -, -, e, -, rfl⟩ | ⟨-, -, -, -, rfl⟩ | ⟨-, -, -, rfl⟩ := hostWrite_next h
  case inr.inl => exact ⟨hite 2 _ _, hite 3 _ _, hite 4 _ _, hite 5 _ _, hite 8 _ _, hite 9 _ _, hite 10 _ _⟩
  all_goals exact ⟨.inl rfl, .inl rfl, .inl rfl, .inl rfl, .inl rfl, .inl rfl, .inl rfl⟩

/-- Settles O30: a turn that is neither a reset nor a HostWrite keeps all seven, and a HostWrite all but its own. -/
theorem parametersAreWrittenByHostAlone : Obligations.ParametersAreWrittenByHostAlone := by
  intro s t hstep hreset
  have hsame : sameParameters s t ∨
      ∃ r d rest, s.turns = .host (.write r d) :: rest ∧ hostWrite r d (s.withTurns rest) = .next t := by
    obtain ⟨-, hcore⟩ | ⟨rest, -, hcore⟩ | ⟨op, rest, hturns, hhost⟩ | ⟨rest, hturns, -⟩ := step_next hstep
    · exact .inl (coreTurn_keeps_parameters hcore).1
    · exact .inl (coreTurn_keeps_parameters hcore).1
    · obtain ⟨r, d, rfl⟩ | ⟨hkeep, -⟩ := hostTurn_keeps_parameters hhost
      · exact .inr ⟨r, d, rest, hturns, hhost⟩
      · exact .inl hkeep
    · exact absurd hturns (hreset rest)
  obtain ⟨hw, hh, hl, hc, hy, hu, hv⟩ | ⟨r, d, rest, hturns, hwrite⟩ := hsame
  · exact ⟨.inl hw, .inl hh, .inl hl, .inl hc, .inl hy, .inl hu, .inl hv⟩
  · have hturn {n : Nat} (hr : r = n) : ∃ d rest, s.turns = .host (.write n d) :: rest := ⟨d, rest, hr ▸ hturns⟩
    obtain ⟨hw, hh, hl, hc, hy, hu, hv⟩ := hostWrite_keeps_parameters hwrite
    exact ⟨hw.imp_right hturn, hh.imp_right hturn, hl.imp_right hturn, hc.imp_right hturn, hy.imp_right hturn,
      hu.imp_right hturn, hv.imp_right hturn⟩

/-! ### STATUS, I and K -/

theorem State.recordChange_keeps_status (s : State) (a : Nat) : sameStatus s (s.recordChange a) := by
  obtain ⟨-, h⟩ | ⟨-, -, h⟩ | ⟨-, old, x, -, -, h⟩ := s.recordChange_cases a
  all_goals simp [h, sameStatus]

/-- No transaction of HOST but a HostWrite writes STATUS, I or K (R12, R17, R18). -/
theorem hostTurn_keeps_status {op : HostOp} {s t : State} (h : hostTurn op s = .next t) :
    (∃ r d, op = .write r d) ∨ sameStatus s t := by
  obtain ⟨r, d, rfl, -⟩ | ⟨r, -, rfl⟩ | ⟨a, b, -, -, rfl⟩ | ⟨a, -, -, rfl⟩ | ⟨p, v, -, -, -, rfl⟩ |
    ⟨p, -, -, x, rfl | rfl⟩ | ⟨n, known, -, -, rfl⟩ | ⟨n, known, -, -, rfl⟩ := hostTurn_next h
  · exact .inl ⟨r, d, rfl⟩
  all_goals exact .inr (by simp [sameStatus, State.recordChange_keeps_status])

/-- A HostWrite that is no accepted DECODE keeps STATUS, I and K; DECODE goes to FAULT with a code or to BUSY with none
(R12, R50, R85). -/
theorem hostWrite_keeps_status {r : Nat} {d : HostWord} {s t : State} (h : hostWrite r d s = .next t) :
    sameStatus s t ∨ s.state ≠ .busy ∧ r = 0 ∧ d = encode .decode ∧
      ((t.state = .busy ∧ t.err = none) ∨ (t.state = .fault ∧ t.err.isSome = true)) := by
  obtain rfl | ⟨-, -, rfl⟩ | ⟨hb, hr, hd, e, -, rfl⟩ | ⟨hb, hr, hd, -, rfl⟩ | ⟨-, -, -, rfl⟩ := hostWrite_next h
  case inr.inr.inl => exact .inr ⟨hb, hr, hd, .inr ⟨rfl, rfl⟩⟩
  case inr.inr.inr.inl => exact .inr ⟨hb, hr, hd, .inl ⟨rfl, rfl⟩⟩
  all_goals exact .inl ⟨rfl, rfl, rfl, rfl⟩

/-- A turn of CORE keeps STATE and ERR, or ends the decode with I = N (R12, R55). -/
theorem coreTurn_status {s t : State} (h : coreTurn s = .next t) :
    (t.state = s.state ∧ t.err = s.err) ∨
      (s.state = .busy ∧ t.state = .done ∧ t.err = s.err ∧ t.i.toNat = t.frameN) := by
  obtain ⟨hb, -, rfl⟩ | ⟨-, rfl⟩ := coreTurn_next h
  · obtain ⟨hN, hd⟩ | ⟨-, hd⟩ := ((s.storePixels s.blockPixels).drawn.advance).finishIfDone_cases
    · exact .inr ⟨hb, by rw [hd]; rfl, by rw [hd]; rfl, by rw [hd]; exact hN⟩
    · exact .inl ⟨by rw [hd]; rfl, by rw [hd]; rfl⟩
  · exact .inl ⟨rfl, rfl⟩

/-- Settles O32: one alternative for CORE's turn, for the write of DECODE's word and for the reset; the rest keep
STATUS. -/
theorem statusIsWrittenByCoreAlone : Obligations.StatusIsWrittenByCoreAlone := by
  intro s t hstep
  obtain ⟨hturns, hcore⟩ | ⟨rest, hturns, hcore⟩ | ⟨op, rest, hturns, hhost⟩ | ⟨rest, hturns, rfl⟩ := step_next hstep
  · obtain hkeep | ⟨hb, hdone⟩ := coreTurn_status hcore
    · exact .inl hkeep
    · exact .inr (.inr (.inr ⟨hb, .inl hturns, hdone⟩))
  · obtain hkeep | ⟨hb, hdone⟩ := coreTurn_status hcore
    · exact .inl hkeep
    · exact .inr (.inr (.inr ⟨hb, .inr ⟨rest, hturns⟩, hdone⟩))
  · obtain ⟨r, d, rfl⟩ | ⟨hstate, herr, -, -⟩ := hostTurn_keeps_status hhost
    · obtain ⟨hstate, herr, -, -⟩ | ⟨hb, rfl, rfl, hnew⟩ := hostWrite_keeps_status hhost
      · exact .inl ⟨hstate, herr⟩
      · exact .inr (.inr (.inl ⟨hb, ⟨rest, hturns⟩, hnew⟩))
    · exact .inl ⟨hstate, herr⟩
  · exact .inr (.inl ⟨rest, hturns, rfl, rfl⟩)

/-- Outside BUSY a turn of CORE keeps STATUS, I and K (R10). -/
theorem coreTurn_of_not_busy_keeps_status {s t : State} (hb : s.state ≠ .busy) (h : coreTurn s = .next t) :
    sameStatus s t := by
  cases (coreTurn_of_not_busy hb).symm.trans h
  exact ⟨rfl, rfl, rfl, rfl⟩

/-- Settles O33: in FAULT CORE is idle, and of HOST's transactions the write of DECODE's word alone changes STATUS. -/
theorem faultIsLeftByDecodeOrReset : Obligations.FaultIsLeftByDecodeOrReset := by
  intro s t hfault hstep
  have hb : s.state ≠ .busy := by rw [hfault]; nofun
  obtain ⟨-, hcore⟩ | ⟨rest, -, hcore⟩ | ⟨op, rest, hturns, hhost⟩ | ⟨rest, hturns, -⟩ := step_next hstep
  · exact .inl (coreTurn_of_not_busy_keeps_status hb hcore)
  · exact .inl (coreTurn_of_not_busy_keeps_status (s := s.withTurns rest) hb hcore)
  · obtain ⟨r, d, rfl⟩ | hkeep := hostTurn_keeps_status hhost
    · obtain hkeep | ⟨-, rfl, rfl, -⟩ := hostWrite_keeps_status hhost
      · exact .inl hkeep
      · exact .inr (.inr ⟨rest, hturns⟩)
    · exact .inl hkeep
  · exact .inr (.inl ⟨rest, hturns⟩)

end Sys2Proof.Machine
end

section
/-! PROOFS. The addresses of a block step and of a whole decode (spec/20_memory.md R34, R39), and where a block step stops
(spec/70_reset_and_hazards.md R98). -/

namespace Sys2Proof.Machine

/-! ### One block step -/

/-- The chroma pair of a block of the frame lies in the chroma plane (R34). -/
theorem mem_chromaAddrs_bounds {m t c : Nat} (ht : t < m) (hc : c ∈ chromaAddrs (4 * m) (blockK t)) :
    4 * m ≤ c ∧ c ≤ 4 * m + 4 * m / 2 - 1 := by
  simp only [chromaAddrs, blockK, List.mem_cons, List.not_mem_nil, or_false] at hc
  omega

/-- Settles O34: I and K stand at a block of the frame, and validation has compared N with both lengths. -/
theorem blockAddressesAreInBounds : Obligations.BlockAddressesAreInBounds := by
  intro s hinv hb
  obtain ⟨hv, a, b, t, -, ht, -, hN, -, -, hk⟩ := hinv.block hb
  obtain ⟨-, -, -, -, hlen, hcap⟩ := (valid_iff s).1 hv
  refine ⟨hinv.blockAddrs_lt hb, fun c hc => ?_, hlen, hcap.symm⟩
  rw [hN, hk] at hc
  rw [hN]
  exact mem_chromaAddrs_bounds ht hc

/-- Settles O37: the two cases of `blockStep_cases`, and the words a block step stores lie at its own addresses. -/
theorem blockStepStopsOnlyOutsidePix : Obligations.BlockStepStopsOnlyOutsidePix := by
  intro s
  obtain ⟨hin, hstep⟩ | ⟨⟨p, hp, hout⟩, hstep⟩ := blockStep_cases s
  · refine ⟨fun ⟨p, hp, hout⟩ => absurd (hin p hp) hout.not_gt, fun _ => ⟨_, hstep, by simp, fun p hp => ?_⟩⟩
    rw [State.finishIfDone_pix]
    exact pixStored_writeAll_of_not_mem _ _ _ (s.blockPixels_addrs ▸ hp)
  · exact ⟨fun _ => hstep, fun hin => absurd (hin p hp) hout.not_gt⟩

/-! ### A whole decode -/

/-- The four indices of a block are distinct (R52). -/
theorem nodup_blockAddrs {w : Nat} (hw : 2 ≤ w) (i : Nat) : (blockAddrs w i).Nodup := by
  simp only [blockAddrs, List.nodup_cons, List.mem_cons, List.not_mem_nil, or_false, not_false_eq_true, List.nodup_nil,
    and_true]
  omega

/-- No index is in two blocks, each pixel belonging to one (R39, R57). -/
theorem nodup_flatMap_blockAddrs {a : Nat} (ha : 0 < a) (m : Nat) :
    ((List.range m).flatMap fun t => blockAddrs (2 * a) (blockI (2 * a) t)).Nodup := by
  rw [List.nodup_flatMap]
  refine ⟨fun t _ => nodup_blockAddrs (by omega) _, List.nodup_range.imp fun {t u} htu p hp hp' => htu ?_⟩
  rw [← (mem_blockAddrs_iff ha).1 hp, ← (mem_blockAddrs_iff ha).1 hp']

/-- The indices of the first a·b blocks are those below N = 4ab (R39, R57). -/
theorem mem_flatMap_blockAddrs_iff {a : Nat} (ha : 0 < a) (b p : Nat) :
    p ∈ ((List.range (a * b)).flatMap fun t => blockAddrs (2 * a) (blockI (2 * a) t)) ↔ p < 4 * (a * b) := by
  simp only [List.mem_flatMap, List.mem_range, mem_blockAddrs_iff ha, exists_eq_right']
  exact ⟨lt_of_blockOfPixel_lt ha, blockOfPixel_lt ha⟩

/-- The chroma pairs of the first `m` blocks follow one another without a gap (R39, R57). -/
theorem flatMap_chromaAddrs (n m : Nat) :
    ((List.range m).flatMap fun t => chromaAddrs n (blockK t)) = (List.range (2 * m)).map (n + ·) := by
  induction m with
  | zero => rfl
  | succ m ih =>
    rw [List.range_succ, List.flatMap_append, ih, Nat.mul_succ, List.range_succ, List.range_succ]
    simp [chromaAddrs, blockK, Nat.add_assoc]

/-- Settles O40: two lists without repetition and with the same members are permutations of each other; the chroma
addresses even come in order. -/
theorem decodeTouchesEachCellOnce : Obligations.DecodeTouchesEachCellOnce := by
  intro a b ha _
  have hN : 2 * a * (2 * b) = 4 * (a * b) := by ring
  have hblocks : 4 * (a * b) / 4 = a * b := by omega
  have hhalf : 4 * (a * b) / 2 = 2 * (a * b) := by omega
  dsimp only
  rw [hN, hblocks, hhalf, flatMap_chromaAddrs]
  refine ⟨(List.perm_ext_iff_of_nodup (nodup_flatMap_blockAddrs ha _) List.nodup_range).2 fun p => ?_, .rfl⟩
  rw [mem_flatMap_blockAddrs_iff ha, List.mem_range]

end Sys2Proof.Machine
end

section
/-! PROOFS. The legal states (spec/10_state.md section 4): they hold at reset, every step keeps them, and in them neither
CORE nor a register access stops. -/

namespace Sys2Proof.Machine

/-- Settles O46: nothing is listed, nothing runs, and every register is 0. -/
theorem resetStateIsLegal : Obligations.ResetStateIsLegal where
  memories :=
    have ⟨hframe, hpix⟩ := State.reset_spaces_wf
    ⟨hframe, hpix, Memory.wf_nil, Memory.wf_nil⟩
  err := ⟨nofun, nofun⟩
  indices := ⟨rfl, rfl⟩
  pixout := .inl rfl
  retained := fun _ => ⟨rfl, rfl⟩
  pixFrame := ⟨nofun, nofun⟩

/-! ### The end of a block step -/

/-- After Advance from a block of the frame the last check of a block step leaves a legal state: BUSY at the next block,
or DONE with I = N = 2K (R55, R57). -/
theorem finishIfDone_inv {u : State} {t : Nat} (hm : u.memoriesWf) (hb : u.state = .busy) (herr : u.err = none)
    (hpixout : u.pixoutLegal) (hv : validate u = none) (hpf : u.pixFrame = some u.frameN) (ht : t + 1 ≤ u.frameN / 4)
    (hi : u.i.toNat = blockI u.frameW (t + 1)) (hk : u.k.toNat = blockK (t + 1))
    (hend : u.i.toNat = u.frameN ↔ t + 1 = u.frameN / 4) : u.finishIfDone.Inv := by
  obtain ⟨a, b, -, -, -, -, hN, -⟩ := valid_dims hv
  have ⟨hframe, hpix, _, _⟩ := hm
  obtain ⟨hlast, hd⟩ | ⟨hlast, hd⟩ := u.finishIfDone_cases
  · have hblocks := hend.mp hlast
    rw [hd]
    refine ⟨⟨hframe, hpix, Memory.wf_nil, Memory.wf_nil⟩, iff_of_false (by simp [herr]) nofun, ?_, hpixout,
      fun _ => ⟨rfl, rfl⟩, nofun, fun _ => .inr (hpf.trans (congrArg some hlast.symm))⟩
    change 4 ∣ u.i.toNat ∧ 0 < u.i.toNat ∧ u.i.toNat = 2 * u.k.toNat
    rw [hlast, hk, blockK]
    omega
  · have hblocks := mt hend.mpr hlast
    rw [hd]
    refine ⟨hm, iff_of_false (by simp [herr]) (by simp [hb]), ?_, hpixout, fun hb' => absurd hb hb', fun _ => hpf,
      fun hdone => by simp [hb] at hdone⟩
    simp only [State.indicesLegal, hb]
    exact ⟨hv, t + 1, lt_of_le_of_ne ht hblocks, hi, hk⟩

/-! ### The turns that keep STATUS -/

section
variable {s : State} (h : s.Inv)
include h

theorem State.Inv.withTurns (ts : List Turn) : (s.withTurns ts).Inv :=
  h.of_same_status h.memories rfl rfl rfl rfl rfl (fun _ => ⟨rfl, rfl, rfl⟩) (fun _ => ⟨rfl, rfl⟩) (.inl rfl)

theorem State.Inv.withHostData (d : HostWord) : (s.withHostData d).Inv :=
  h.of_same_status h.memories rfl rfl rfl rfl rfl (fun _ => ⟨rfl, rfl, rfl⟩) (fun _ => ⟨rfl, rfl⟩) (.inl rfl)

theorem State.Inv.drawn : s.drawn.Inv :=
  h.of_same_status h.memories rfl rfl rfl rfl rfl (fun _ => ⟨rfl, rfl, rfl⟩) (fun _ => ⟨rfl, rfl⟩) (.inl rfl)

theorem State.Inv.withFrame {b : Buffer 8} (hb : b.wf) : (s.withFrame b).Inv :=
  have ⟨_, hrest⟩ := h.memories
  h.of_same_status ⟨hb, hrest⟩ rfl rfl rfl rfl rfl (fun _ => ⟨rfl, rfl, rfl⟩) (fun _ => ⟨rfl, rfl⟩) (.inl rfl)

theorem State.Inv.withPix {b : Buffer 32} (hb : b.wf) : (s.withPix b).Inv :=
  have ⟨hframe, _, hkept⟩ := h.memories
  h.of_same_status ⟨hframe, hb, hkept⟩ rfl rfl rfl rfl rfl (fun _ => ⟨rfl, rfl, rfl⟩)
    (fun _ => ⟨rfl, rfl⟩) (.inl rfl)

/-- Old bytes are noted only while BUSY (R24, R96). -/
theorem State.Inv.withStale {m : Memory 8} (hb : s.state = .busy) (hm : Memory.wf m) : (s.withStale m).Inv :=
  have ⟨hframe, hpix, _, hold⟩ := h.memories
  h.of_same_status ⟨hframe, hpix, hm, hold⟩ rfl rfl rfl rfl rfl
    (fun _ => ⟨rfl, rfl, rfl⟩) (fun hb' => absurd hb hb') (.inl rfl)

/-- Outside BUSY PIX may be the buffer of no decode (R100, log 21). -/
theorem State.Inv.withPixFrame_none (hb : s.state ≠ .busy) : (s.withPixFrame none).Inv :=
  h.of_same_status h.memories rfl rfl rfl rfl rfl (fun hb' => absurd hb' hb) (fun _ => ⟨rfl, rfl⟩) (.inr ⟨hb, rfl⟩)

/-- Outside BUSY a register write leaves a legal state: no decode rests on the parameters (R72, R74). -/
theorem State.Inv.writeReg (hb : s.state ≠ .busy) (r : Nat) (d : HostWord) : (s.writeReg r d).Inv :=
  h.of_same_status h.memories rfl rfl rfl rfl rfl (fun hb' => absurd hb' hb) (fun _ => ⟨rfl, rfl⟩) (.inl rfl)

theorem State.Inv.recordChange (a : Nat) : (s.recordChange a).Inv := by
  obtain ⟨-, -, hstale, -⟩ := h.memories
  obtain ⟨-, e⟩ | ⟨hb, -, e⟩ | ⟨hb, old, x, -, -, e⟩ := s.recordChange_cases a
  · rwa [e]
  · rw [e]; exact h.withStale hb (Memory.wf_write hstale _ _)
  · rw [e]; exact (h.withStale hb (Memory.wf_write hstale _ _)).drawn

/-! ### The commands and the reset -/

/-- XFORM writes a word with alpha 0xFF (R22, R42). -/
theorem State.Inv.withPixout_ct (y u v : Int) : (s.withPixout (ct y u v)).Inv where
  memories := h.memories
  err := h.err
  indices := h.indices
  pixout := .inr (ct_alpha y u v)
  retained := h.retained
  pixFrame := h.pixFrame

/-- A faulting DECODE clears I and K and sets ERR with FAULT (R85). -/
theorem State.Inv.raise (hb : s.state ≠ .busy) (e : FaultCode) : (s.beginDecode.raise e).Inv where
  memories := h.memories
  err := iff_of_true rfl rfl
  indices := ⟨rfl, rfl⟩
  pixout := h.pixout
  retained := fun _ => h.retained hb
  pixFrame := ⟨nofun, nofun⟩

/-- An accepted DECODE stands at the first block of a frame that validates (R50, R57). -/
theorem State.Inv.acceptDecode (hv : validate s = none) :
    (s.beginDecode.enterBusy.withPixFrame (some s.frameN)).Inv where
  memories :=
    have ⟨hframe, hpix, _, _⟩ := h.memories
    ⟨hframe, hpix, Memory.wf_nil, hpix.1⟩
  err := iff_of_false nofun nofun
  indices := ⟨hv, 0, frameN_div_four_pos hv, (blockI_zero _).symm, rfl⟩
  pixout := h.pixout
  retained := fun hb => absurd rfl hb
  pixFrame := ⟨fun _ => rfl, nofun⟩

/-- A reset gives the registers of the reset state, and keeps both buffers canonical (R92, R93). -/
theorem State.Inv.resetTurn : (resetTurn s).Inv where
  memories :=
    have ⟨hframe, hpix, _, _⟩ := h.memories
    ⟨hframe, State.pixAfterReset_wf hpix, Memory.wf_nil, Memory.wf_nil⟩
  err := ⟨nofun, nofun⟩
  indices := ⟨rfl, rfl⟩
  pixout := .inl rfl
  retained := fun _ => ⟨rfl, rfl⟩
  pixFrame := ⟨nofun, nofun⟩

/-! ### The block step -/

/-- Where Advance leads from a block of the frame: to the next block, or, after the last, to I = N and K = N/2 (R54, R55,
R57). -/
theorem State.Inv.advance_cases (hb : s.state = .busy) :
    ∃ t, t + 1 ≤ s.frameN / 4 ∧ s.advance.i.toNat = blockI s.frameW (t + 1) ∧ s.advance.k.toNat = blockK (t + 1) ∧
      (s.advance.i.toNat = s.frameN ↔ t + 1 = s.frameN / 4) := by
  obtain ⟨-, a, b, t, ha, ht, hw, hN, -, hi, hk⟩ := h.block hb
  obtain ⟨hi', hk'⟩ := h.advance_toNat hb
  obtain ⟨-, hend⟩ := blockI_le_and_eq_iff (b := b) (t := t + 1) ha ht
  have hnext : s.advance.i.toNat = blockI s.frameW (t + 1) := by rw [hi', hi, hw, advanceI_blockI ha]
  refine ⟨t, by omega, hnext, by rw [hk', hk, blockK, blockK]; omega, ?_⟩
  rw [hnext, hw, hN, hend]
  omega

/-- The writes of a block step that fits PIX keep it canonical. -/
theorem State.Inv.storePixels_wf (hin : ∀ p ∈ blockAddrs s.frameW s.i.toNat, p < s.pix.size) :
    (s.storePixels s.blockPixels).pix.wf := by
  obtain ⟨-, ⟨hcells, hlt⟩, -, -⟩ := h.memories
  refine ⟨Memory.wf_writeAll hcells _, fun c hc => ?_⟩
  obtain hc | hc := Memory.mem_writeAll hc
  · exact hlt c hc
  · exact hin _ (s.blockPixels_addrs ▸ hc)

/-- A block step goes to the next block of the frame while BUSY, or ends the decode (R53 to R55). -/
theorem State.Inv.blockStep (hb : s.state = .busy) (hin : ∀ p ∈ blockAddrs s.frameW s.i.toNat, p < s.pix.size) :
    (s.storePixels s.blockPixels).drawn.advance.finishIfDone.Inv := by
  obtain ⟨hv, -⟩ := h.block hb
  obtain ⟨hframe, -, hstale, hold⟩ := h.memories
  have herr : s.err = none := (State.errOnlyInFault.cases h.err).elim And.left fun ⟨_, _, hf⟩ => by simp [hb] at hf
  obtain ⟨hpf, -⟩ := h.pixFrame
  obtain ⟨t, ht, hi, hk, hend⟩ := h.advance_cases hb
  exact finishIfDone_inv ⟨hframe, h.storePixels_wf hin, hstale, hold⟩ hb herr h.pixout (by simpa using hv)
    (by simpa using hpf hb) (by simpa using ht) (by simpa using hi) (by simpa using hk) (by simpa using hend)

end

/-! ### Every step -/

theorem State.Inv.coreTurn {s t : State} (h : s.Inv) (hstep : coreTurn s = .next t) : t.Inv := by
  obtain ⟨hb, hin, rfl⟩ | ⟨-, rfl⟩ := coreTurn_next hstep
  · exact h.blockStep hb hin
  · exact h

theorem State.Inv.hostWrite {s t : State} {r : Nat} {d : HostWord} (h : s.Inv) (hstep : hostWrite r d s = .next t) :
    t.Inv := by
  obtain rfl | ⟨hb, -, rfl⟩ | ⟨hb, -, -, e, -, rfl⟩ | ⟨-, -, -, hv, rfl⟩ | ⟨-, -, -, rfl⟩ := hostWrite_next hstep
  · exact h
  · exact h.writeReg hb r d
  · exact h.raise hb e
  · exact h.acceptDecode hv
  · exact h.withPixout_ct _ _ _

theorem State.Inv.hostTurn {s t : State} {op : HostOp} (h : s.Inv) (hstep : hostTurn op s = .next t) : t.Inv := by
  obtain ⟨hframe, hpix, -, -⟩ := h.memories
  obtain ⟨r, d, -, hwrite⟩ | ⟨r, -, rfl⟩ | ⟨a, b, -, ha, rfl⟩ | ⟨a, -, -, rfl⟩ | ⟨p, v, -, -, hp, rfl⟩ |
    ⟨p, -, -, x, rfl | rfl⟩ | ⟨n, known, -, -, rfl⟩ | ⟨n, known, -, hb, rfl⟩ := hostTurn_next hstep
  · exact h.hostWrite hwrite
  · exact h.withHostData _
  · exact (h.recordChange a).withFrame (Buffer.wf_store hframe ha b)
  · exact h.withHostData _
  · exact h.withPix (Buffer.wf_store hpix hp v)
  · exact h.withHostData x
  · exact (h.withHostData x).drawn
  · exact (h.withFrame (boundBuffer_wf _ _ _)).drawn
  · exact ((h.withPix (boundBuffer_wf _ _ _)).withPixFrame_none hb).drawn

/-- Settles O47: CORE, HOST and the reset each keep the invariant, and taking a turn off the list does too. -/
theorem everyStepKeepsTheStateLegal : Obligations.EveryStepKeepsTheStateLegal := by
  intro s t h hstep
  obtain ⟨-, hcore⟩ | ⟨rest, -, hcore⟩ | ⟨op, rest, -, hhost⟩ | ⟨rest, -, rfl⟩ := step_next hstep
  · exact h.coreTurn hcore
  · exact (h.withTurns rest).coreTurn hcore
  · exact (h.withTurns rest).hostTurn hhost
  · exact (h.withTurns rest).resetTurn

/-! ### What does not stop -/

/-- In a legal state whose sizes are truthful while BUSY, CORE's turn is not refused: its block fits PIX (R34, R98). -/
theorem State.Inv.coreTurn_answers {s : State} (h : s.Inv) (htrue : s.state = .busy → s.truthful) :
    ∃ t, Machine.coreTurn s = .next t := by
  by_cases hb : s.state = .busy
  · rw [coreTurn_of_busy hb]
    obtain ⟨hv, -⟩ := h.block hb
    obtain ⟨-, hstep⟩ | ⟨⟨p, hp, hout⟩, -⟩ := blockStep_cases s
    · exact ⟨_, hstep⟩
    · have hlt := h.blockAddrs_lt hb p hp
      rw [frameN_eq_pixSize hv (htrue hb)] at hlt
      exact absurd hlt hout.not_gt
  · exact ⟨s, coreTurn_of_not_busy hb⟩

/-- Settles O56: CORE's block fits PIX, and a reset, a HostWrite and a HostRead answer in every state. -/
theorem onlyHostAccessesStop : Obligations.OnlyHostAccessesStop := by
  rintro s h htrue (hturns | ⟨rest, hturns⟩ | ⟨rest, hturns⟩ | ⟨r, d, rest, hturns⟩ | ⟨r, rest, hturns⟩)
  · rw [step_of_no_turns hturns]
    exact h.coreTurn_answers htrue
  · rw [step_of_core hturns]
    exact (h.withTurns rest).coreTurn_answers htrue
  · exact ⟨_, step_of_turns_cons hturns⟩
  · obtain ⟨t, ht, -⟩ := hostWrite_outcome r d (s.withTurns rest)
    exact ⟨t, (step_of_hostWrite hturns).trans ht⟩
  · exact ⟨_, step_of_hostRead hturns⟩

end Sys2Proof.Machine
end

section
/-! PROOFS. What HOST does to its buffers, and what a reset leaves of PIX (spec/20_memory.md, spec/42_host_interface.md R75,
spec/70_reset_and_hazards.md R92 to R100). -/

namespace Sys2Proof.Machine

/-- A listed turn of HOST. -/
theorem step_of_host {s : State} {op : HostOp} {rest : List Turn} (h : s.turns = .host op :: rest) :
    step s = hostTurn op (s.withTurns rest) := step_of_turns_cons h

/-! ### The equations of the host accesses to the buffers -/

theorem hostPutByte_of_lt {a : Nat} {s : State} (ha : a < s.frame.size) (b : Byte) :
    hostPutByte a b s = .next ((s.recordChange a).withFrame (s.frame.store a b)) := if_pos ha

theorem hostPutByte_of_ge {a : Nat} {s : State} (ha : s.frame.size ≤ a) (b : Byte) :
    hostPutByte a b s = .fault .noSuchFrameByte := if_neg ha.not_gt

theorem hostGetByte_of_lt {a : Nat} {s : State} (ha : a < s.frame.size) :
    hostGetByte a s = .next (s.withHostData ((frameStored s.frame a).setWidth 32)) := if_pos ha

theorem hostGetByte_of_ge {a : Nat} {s : State} (ha : s.frame.size ≤ a) :
    hostGetByte a s = .fault .noSuchFrameByte := if_neg ha.not_gt

theorem hostPutPixel_of_busy {s : State} (hb : s.state = .busy) (p : Nat) (v : Pixel) :
    hostPutPixel p v s = .refused .hostPixWriteWhileBusy := if_pos hb

theorem hostPutPixel_of_lt {p : Nat} {s : State} (hb : s.state ≠ .busy) (hp : p < s.pix.size) (v : Pixel) :
    hostPutPixel p v s = .next (s.withPix (s.pix.store p v)) := by
  rw [hostPutPixel, if_neg hb, if_pos hp]

theorem hostPutPixel_of_ge {p : Nat} {s : State} (hb : s.state ≠ .busy) (hp : s.pix.size ≤ p) (v : Pixel) :
    hostPutPixel p v s = .refused .hostOutsidePix := by
  rw [hostPutPixel, if_neg hb, if_neg hp.not_gt]

theorem hostGetPixel_of_ge {p : Nat} {s : State} (hp : s.pixEnd ≤ p) :
    hostGetPixel p s = .refused .hostOutsidePix := if_neg hp.not_gt

theorem hostGetPixel_of_busy {p : Nat} {s : State} (hp : p < s.pixEnd) (hb : s.state = .busy) :
    hostGetPixel p s =
      .next (s.withHostData ((s.unsettledPixel p).getD (Config.unwrittenPixel s.pix.tag p))).drawn := by
  rw [hostGetPixel, if_pos hp, if_pos hb]

theorem hostGetPixel_of_not_busy {p : Nat} {s : State} (hp : p < s.pixEnd) (hb : s.state ≠ .busy) :
    hostGetPixel p s = .next (s.withHostData (pixStored s.pix p)) := by
  rw [hostGetPixel, if_pos hp, if_neg hb]

theorem hostBindFrame_of_busy {s : State} (hb : s.state = .busy) (n : Nat) (known : List (Nat × Byte)) :
    hostBindFrame n known s = .refused .bindWhileBusy := if_pos hb

theorem hostBindFrame_of_not_busy {s : State} (hb : s.state ≠ .busy) (n : Nat) (known : List (Nat × Byte)) :
    hostBindFrame n known s = .next (s.withFrame (boundBuffer 8 n (s.draws + 1) known)).drawn := if_neg hb

theorem hostBindPix_of_busy {s : State} (hb : s.state = .busy) (n : Nat) (known : List (Nat × Pixel)) :
    hostBindPix n known s = .refused .bindWhileBusy := if_pos hb

theorem hostBindPix_of_not_busy {s : State} (hb : s.state ≠ .busy) (n : Nat) (known : List (Nat × Pixel)) :
    hostBindPix n known s = .next ((s.withPix (boundBuffer 32 n (s.draws + 1) known)).withPixFrame none).drawn :=
  if_neg hb

theorem State.recordChange_of_not_busy {s : State} (hb : s.state ≠ .busy) (a : Nat) : s.recordChange a = s := if_neg hb

/-- Settles O55: the branches of the host accesses that are no next state. -/
theorem whereHostTurnsStop : Obligations.WhereHostTurnsStop := by
  intro s rest
  refine ⟨fun a b h ha => ?_, fun a h ha => ?_, fun p v h hb => ?_, fun p v h hb hp => ?_, fun n known h hb => ?_,
    fun n known h hb => ?_⟩
  all_goals rw [step_of_host h]
  · exact hostPutByte_of_ge (s := s.withTurns rest) ha b
  · exact hostGetByte_of_ge (s := s.withTurns rest) ha
  · exact hostPutPixel_of_busy (s := s.withTurns rest) hb p v
  · exact hostPutPixel_of_ge (s := s.withTurns rest) hb hp v
  · exact hostBindFrame_of_busy (s := s.withTurns rest) hb n known
  · exact hostBindPix_of_busy (s := s.withTurns rest) hb n known

/-! ### The space FRAME -/

/-- Settles O48: outside BUSY nothing is noted of the change, and a read after the store is `frameStored_store`. -/
theorem frameHoldsWhatHostPut : Obligations.FrameHoldsWhatHostPut := by
  intro s a b rest hb ha hturns
  have hstep : step s = .next ((s.withTurns rest).withFrame (s.frame.store a b)) := by
    rw [step_of_host hturns]
    refine (hostPutByte_of_lt (s := s.withTurns rest) ha b).trans ?_
    rw [State.recordChange_of_not_busy (s := s.withTurns rest) hb, State.withTurns_frame]
  have hread : frameStored (s.frame.store a b) a = b := by simp
  refine ⟨_, hstep, hread, fun c hc => by simp [hc], rfl, rfl, ⟨rfl, rfl, rfl, rfl⟩, ⟨rfl, rfl, rfl, rfl, rfl, rfl, rfl⟩,
    rfl, rfl, ?_⟩
  rw [hostGetByte_of_lt (s := (s.withTurns rest).withFrame (s.frame.store a b)) ha, State.withFrame_frame, hread]
  rfl

/-- A byte HOST changes for the first time during a decode: its old value is kept beside the new one (R96). -/
theorem State.recordChange_of_first {s : State} {a : Nat} (hb : s.state = .busy) (hfirst : Memory.read s.stale a = none) :
    s.recordChange a = s.withStale (Memory.write s.stale a (frameStored s.frame a)) := by
  rw [State.recordChange, if_pos hb, hfirst]

/-- CORE reads a byte that HOST has changed as the new or as the old value (R96). -/
theorem State.frameByte_of_stale {s : State} {a : Nat} {old : Byte} (ha : a < s.frame.size)
    (hs : Memory.read s.stale a = some old) : s.frameByte a = frameStored s.frame a ∨ s.frameByte a = old := by
  simp only [State.frameByte, ha, hs, if_true]
  split
  · exact .inl rfl
  · exact .inr rfl

/-- What CORE reads at an address rests on the draw, the size, and the stored and the noted byte there alone. -/
theorem State.frameByte_congr {s t : State} {c : Nat} (hdraws : t.draws = s.draws) (hsize : t.frame.size = s.frame.size)
    (hstored : frameStored t.frame c = frameStored s.frame c) (hstale : Memory.read t.stale c = Memory.read s.stale c) :
    t.frameByte c = s.frameByte c := by
  simp only [State.frameByte, hdraws, hsize, hstored, hstale]

/-- Settles O50: at the changed byte the noted value is the one CORE read before, and elsewhere nothing CORE reads has
changed. -/
theorem changedByteIsReadOldOrNew : Obligations.ChangedByteIsReadOldOrNew := by
  intro s a b rest hb ha hfirst hturns
  have hstep : step s = .next (((s.withTurns rest).withStale
      (Memory.write s.stale a (frameStored s.frame a))).withFrame (s.frame.store a b)) := by
    rw [step_of_host hturns]
    refine (hostPutByte_of_lt (s := s.withTurns rest) ha b).trans ?_
    rw [State.recordChange_of_first (s := s.withTurns rest) hb hfirst]
    rfl
  refine ⟨_, hstep, ?_, fun c hc => State.frameByte_congr rfl rfl (by simp [hc]) (by simp [hc])⟩
  obtain hnew | hold := State.frameByte_of_stale (s := ((s.withTurns rest).withStale
    (Memory.write s.stale a (frameStored s.frame a))).withFrame (s.frame.store a b)) (old := frameStored s.frame a)
    ha (by simp)
  · exact .inr (hnew.trans (by simp))
  · exact .inl (hold.trans (State.frameByte_eq ha hfirst).symm)

/-! ### The space PIX -/

/-- Settles O49: a read after the store is `pixStored_store`. -/
theorem pixHoldsWhatHostPut : Obligations.PixHoldsWhatHostPut := by
  intro s p v rest hb hp hturns
  have hstep : step s = .next ((s.withTurns rest).withPix (s.pix.store p v)) :=
    (step_of_host hturns).trans (hostPutPixel_of_lt (s := s.withTurns rest) hb hp v)
  have hread : pixStored (s.pix.store p v) p = v := by simp
  refine ⟨_, hstep, hread, ⟨rfl, fun q hq => ?_⟩, rfl, ⟨rfl, rfl, rfl, rfl⟩, ⟨rfl, rfl, rfl, rfl, rfl, rfl, rfl⟩,
    rfl, rfl, fun hend => ?_⟩
  · rw [List.mem_singleton] at hq
    simp [hq]
  · rw [hostGetPixel_of_not_busy (s := (s.withTurns rest).withPix (s.pix.store p v)) hend hb, State.withPix_pix, hread]
    rfl

/-- A word the running decode has not settled is its final or its old word below N, and stands as it is elsewhere (R97,
R92). -/
theorem State.unsettledPixel_getD (s : State) (p : Nat) :
    (p < s.frameN →
      (s.unsettledPixel p).getD (Config.unwrittenPixel s.pix.tag p) = s.finalPixel p ∨
        (s.unsettledPixel p).getD (Config.unwrittenPixel s.pix.tag p) =
          (Memory.read s.pixOld p).getD (Config.unwrittenPixel s.pix.tag p)) ∧
    (s.frameN ≤ p → (s.unsettledPixel p).getD (Config.unwrittenPixel s.pix.tag p) = pixStored s.pix p) := by
  unfold State.unsettledPixel
  refine ⟨fun hp => ?_, fun hp => ?_⟩
  · rw [if_pos hp]
    split
    · exact .inl rfl
    · exact .inr rfl
  · rw [if_neg hp.not_gt, pixStored]

/-- Settles O51: the three branches of a host read of PIX; while BUSY the word is `unsettledPixel`'s. -/
theorem hostReadsOfPix : Obligations.HostReadsOfPix := by
  intro s p rest hturns
  have hstep : step s = hostGetPixel p (s.withTurns rest) := step_of_host hturns
  rw [hstep]
  refine ⟨fun n hn hp => ?_, fun hp => ?_, fun hp hb => ?_, fun hp hb => ?_⟩
  · exact hostGetPixel_of_ge ((State.pixEnd_le_of_pixFrame (s := s.withTurns rest) hn).trans hp)
  · exact hostGetPixel_of_ge ((s.withTurns rest).pixEnd_le.trans hp)
  · exact hostGetPixel_of_not_busy (s := s.withTurns rest) hp hb
  · obtain ⟨hbelow, habove⟩ := (s.withTurns rest).unsettledPixel_getD p
    exact ⟨_, hostGetPixel_of_busy (s := s.withTurns rest) hp hb, rfl, hbelow, habove⟩

/-! ### Binding -/

/-- A byte HOST has placed in the buffer it binds, no later entry overriding it, stands there (R94). -/
theorem frameStored_boundBuffer {n tag a : Nat} {v : Byte} {pre post : List (Nat × Byte)} (ha : a < n)
    (hpost : ∀ c ∈ post, c.1 ≠ a) : frameStored (boundBuffer 8 n tag (pre ++ (a, v) :: post)) a = v := by
  rw [frameStored, read_boundBuffer ha hpost, Option.getD_some]

theorem pixStored_boundBuffer {n tag p : Nat} {v : Pixel} {pre post : List (Nat × Pixel)} (hp : p < n)
    (hpost : ∀ c ∈ post, c.1 ≠ p) : pixStored (boundBuffer 32 n tag (pre ++ (p, v) :: post)) p = v := by
  rw [pixStored, read_boundBuffer hp hpost, Option.getD_some]

/-- Settles O53: the bound buffer is `boundBuffer`, and binding writes the one space, `pixFrame` and the draw counter. -/
theorem bindingBringsWhatHostPlaced : Obligations.BindingBringsWhatHostPlaced := by
  refine ⟨fun s n known rest hb hturns => ?_, fun s n known rest hb hturns => ?_⟩
  · refine ⟨_, (step_of_host hturns).trans (hostBindFrame_of_not_busy (s := s.withTurns rest) hb n known), rfl, ?_, rfl,
      rfl, ⟨rfl, rfl, rfl, rfl⟩, ⟨rfl, rfl, rfl, rfl, rfl, rfl, rfl⟩, rfl, rfl, rfl⟩
    rintro pre a v post rfl hpost ha
    exact frameStored_boundBuffer ha hpost
  · refine ⟨_, (step_of_host hturns).trans (hostBindPix_of_not_busy (s := s.withTurns rest) hb n known), rfl, ?_, rfl,
      rfl, ⟨rfl, rfl, rfl, rfl⟩, ⟨rfl, rfl, rfl, rfl, rfl, rfl, rfl⟩, rfl, rfl, rfl⟩
    rintro pre p v post rfl hpost hp
    exact pixStored_boundBuffer hp hpost

/-! ### Reset -/

/-- PIX after a reset that interrupts a decode, word by word (R92, U14). -/
theorem State.pixStored_pixAfterReset {s : State} (hwf : s.pix.wf) (hb : s.state = .busy) (p : Nat) :
    pixStored s.pixAfterReset p =
      if p < min s.frameN s.pix.size then (s.unsettledPixel p).getD (Config.unwrittenPixel s.pix.tag p)
      else pixStored s.pix p := by
  obtain ⟨hcells, -⟩ := hwf
  rw [State.pixAfterReset, if_pos hb]
  simp only [pixStored, Memory.read_putRange hcells]
  split <;> rfl

theorem State.pixAfterReset_of_not_busy {s : State} (hb : s.state ≠ .busy) : s.pixAfterReset = s.pix := if_neg hb

theorem State.pixAfterReset_size (s : State) : s.pixAfterReset.size = s.pix.size := by
  unfold State.pixAfterReset; split <;> rfl

theorem State.pixAfterReset_tag (s : State) : s.pixAfterReset.tag = s.pix.tag := by
  unfold State.pixAfterReset; split <;> rfl

/-- Settles O45: the registers are those of the reset state, and PIX is `pixAfterReset`. -/
theorem resetInAnyState : Obligations.ResetInAnyState := by
  intro s rest ⟨_, hpix, _, _⟩ hturns
  refine ⟨_, step_of_turns_cons hturns, rfl, ⟨rfl, rfl, rfl, rfl, rfl, rfl, rfl⟩, ⟨rfl, rfl, rfl, rfl⟩, rfl, rfl,
    (s.withTurns rest).pixAfterReset_size, (s.withTurns rest).pixAfterReset_tag,
    State.pixAfterReset_of_not_busy (s := s.withTurns rest), fun hb p => ?_⟩
  have hread := State.pixStored_pixAfterReset (s := s.withTurns rest) hpix hb p
  obtain ⟨hbelow, -⟩ := (s.withTurns rest).unsettledPixel_getD p
  refine ⟨fun hN hsize => ?_, fun hout => ?_⟩
  · have hunsettled := hread.trans (if_pos (lt_min hN hsize))
    exact (hbelow hN).imp hunsettled.trans hunsettled.trans
  · have hkept : ¬ p < min s.frameN s.pix.size := by omega
    exact hread.trans (if_neg hkept)

/-! ### Reads after a decode -/

/-- CORE keeps the N that bounds HOST's reads of PIX (R100, log 21). -/
theorem coreTurn_keeps_pixFrame {s t : State} (h : coreTurn s = .next t) : t.pixFrame = s.pixFrame := by
  obtain ⟨-, -, rfl⟩ | ⟨-, rfl⟩ := coreTurn_next h
  · simp
  · rfl

theorem coreSteps_keeps_pixFrame {n : Nat} {s t : State} (h : coreSteps n s = .next t) : t.pixFrame = s.pixFrame := by
  induction n generalizing s with
  | zero => cases h; rfl
  | succ n ih =>
    rw [coreSteps_succ_andThen] at h
    cases hc : coreTurn s with
    | next u =>
      rw [hc, andThen_next] at h
      exact (ih h).trans (coreTurn_keeps_pixFrame hc)
    | fault r => rw [hc] at h; cases h
    | refused r => rw [hc] at h; cases h

/-- After a run of an accepted DECODE, PIX is the buffer of a frame of its N pixels (R100). -/
theorem decodeRun_pixFrame {s t : State} (hb : s.state ≠ .busy) (hturns : s.turns = []) (hv : validate s = none)
    (hrun : decodeRun s = .next t) : t.pixFrame = some s.frameN := by
  simp only [decodeRun, exec_decode_of_valid hb hv] at hrun
  rw [steps_of_no_turns _ _ (by simpa using hturns)] at hrun
  exact coreSteps_keeps_pixFrame hrun

/-- Settles O52: after the run `pixEnd` is N, the buffer being at least as long. -/
theorem readsStayInsideTheDecodedFrame : Obligations.ReadsStayInsideTheDecodedFrame := by
  intro s hb hturns hv hsize
  obtain ⟨t, hrun, hat⟩ := decodeRun_of_valid hb hturns hv hsize
  have hpf := decodeRun_pixFrame hb hturns hv hrun
  have hdone : t.state = .done := hat.state.trans (if_neg (lt_irrefl _))
  have hend : t.pixEnd = s.frameN := by
    simp only [State.pixEnd, hpf, hat.pixSize]
    exact min_eq_left hsize
  refine ⟨t, hrun, hdone, hpf, fun p hp => ?_, fun p w h hp => ?_⟩
  · exact hostGetPixel_of_not_busy (hend ▸ hp) (by rw [hdone]; nofun)
  · exact hostGetPixel_of_ge ((State.pixEnd_le_of_pixFrame hpf).trans hp)

end Sys2Proof.Machine
end

section
/-! PROOFS. The order of HOST's preparations is free (spec/70_reset_and_hazards.md R94): a run of turns of HOST is the
composition of its transactions, and those that touch different parts of the state commute. -/

namespace Sys2Proof.Machine

/-! ### A run of turns of HOST -/

/-- The transactions of HOST, one after another, stopping at the first that is no next state. -/
def hostTurns : List HostOp → State → Host.Outcome State Fault Refusal
  | [], s => .next s
  | op :: ops, s => andThen (hostTurn op s) (hostTurns ops)

theorem mapNext_andThen (g : State → State) (o : Host.Outcome State Fault Refusal)
    (f : State → Host.Outcome State Fault Refusal) : mapNext g (andThen o f) = andThen o fun t => mapNext g (f t) := by
  cases o <;> rfl

theorem andThen_mapNext (g : State → State) (o : Host.Outcome State Fault Refusal)
    (f : State → Host.Outcome State Fault Refusal) : andThen (mapNext g o) f = andThen o fun t => f (g t) := by
  cases o <;> rfl

theorem exec_withTurns (i : Instr) (s : State) (ts : List Turn) :
    exec i (s.withTurns ts) = mapNext (·.withTurns ts) (exec i s) := by
  obtain ⟨hb, h⟩ | ⟨hb, rfl, e, hv, h⟩ | ⟨hb, rfl, hv, h⟩ | ⟨hb, rfl, h⟩ := exec_cases i s
  · rw [h, exec_of_busy (s := s.withTurns ts) hb]; rfl
  · rw [h, exec_decode_of_invalid (s := s.withTurns ts) hb hv]; rfl
  · rw [h, exec_decode_of_valid (s := s.withTurns ts) hb hv]; rfl
  · rw [h, exec_xform_of_not_busy (s := s.withTurns ts) hb]; rfl

theorem hostWrite_withTurns (r : Nat) (d : HostWord) (s : State) (ts : List Turn) :
    hostWrite r d (s.withTurns ts) = mapNext (·.withTurns ts) (hostWrite r d s) := by
  by_cases hb : s.state = .busy
  · rw [hostWrite_of_busy hb, hostWrite_of_busy (s := s.withTurns ts) hb]; rfl
  by_cases hr : r = 0
  · subst hr
    by_cases hd : ∃ i, d = encode i
    · obtain ⟨i, rfl⟩ := hd
      rw [hostWrite_encode, hostWrite_encode, exec_withTurns]
    · rw [hostWrite_of_ne_encode (not_exists.mp hd), hostWrite_of_ne_encode (not_exists.mp hd)]; rfl
  · rw [hostWrite_of_ne_zero hb hr, hostWrite_of_ne_zero (s := s.withTurns ts) hb hr]; rfl

theorem State.recordChange_withTurns (s : State) (a : Nat) (ts : List Turn) :
    (s.withTurns ts).recordChange a = (s.recordChange a).withTurns ts := by
  by_cases hb : s.state = .busy
  · rw [State.recordChange, State.recordChange, if_pos hb, if_pos (by exact hb), State.withTurns_stale]
    split <;> rfl
  · rw [State.recordChange_of_not_busy hb, State.recordChange_of_not_busy (s := s.withTurns ts) hb]

/-- What a transaction of HOST does neither depends on what happens next nor changes it. -/
theorem hostTurn_withTurns (op : HostOp) (s : State) (ts : List Turn) :
    hostTurn op (s.withTurns ts) = mapNext (·.withTurns ts) (hostTurn op s) := by
  cases op with
  | write r d => exact hostWrite_withTurns r d s ts
  | read r => rfl
  | putByte a b =>
    simp only [hostTurn, hostPutByte, State.recordChange_withTurns, apply_ite (mapNext _), mapNext_next, mapNext_fault]
    rfl
  | getByte a => simp only [hostTurn, hostGetByte, apply_ite (mapNext _), mapNext_next, mapNext_fault]; rfl
  | putPixel p v => simp only [hostTurn, hostPutPixel, apply_ite (mapNext _), mapNext_next, mapNext_refused]; rfl
  | getPixel p => simp only [hostTurn, hostGetPixel, apply_ite (mapNext _), mapNext_next, mapNext_refused]; rfl
  | bindFrame n known => simp only [hostTurn, hostBindFrame, apply_ite (mapNext _), mapNext_next, mapNext_refused]; rfl
  | bindPix n known => simp only [hostTurn, hostBindPix, apply_ite (mapNext _), mapNext_next, mapNext_refused]; rfl

/-- Steps over listed turns of HOST are those transactions, the rest of the list staying (R76). -/
theorem steps_of_host_turns (ops : List HostOp) (rest : List Turn) (s : State) :
    steps ops.length (s.withTurns (ops.map Turn.host ++ rest)) = mapNext (·.withTurns rest) (hostTurns ops s) := by
  induction ops generalizing s with
  | nil => rfl
  | cons op ops ih =>
    rw [List.length_cons, List.map_cons, List.cons_append, steps_succ, step_of_host (s.withTurns_turns _), hostTurns,
      mapNext_andThen]
    change andThen (hostTurn op (s.withTurns _)) _ = _
    rw [hostTurn_withTurns, andThen_mapNext]
    exact congrArg (andThen _) (funext ih)

/-! ### Filling a buffer -/

/-- Placing bytes in FRAME outside BUSY, one turn each, writes its cells in the order of the turns (R36, R48). -/
theorem hostTurns_putByte (known : List (Nat × Byte)) {s : State} (hb : s.state ≠ .busy)
    (hin : ∀ c ∈ known, c.1 < s.frame.size) :
    hostTurns (known.map fun c => .putByte c.1 c.2) s =
      .next (s.withFrame { s.frame with cells := Memory.writeAll s.frame.cells known }) := by
  induction known generalizing s with
  | nil => rfl
  | cons c known ih =>
    obtain ⟨hc, hknown⟩ := List.forall_mem_cons.mp hin
    rw [List.map_cons, hostTurns, hostTurn, hostPutByte_of_lt hc, State.recordChange_of_not_busy hb, andThen_next]
    exact ih (s := s.withFrame (s.frame.store c.1 c.2)) hb hknown

/-- The same of words of PIX. -/
theorem hostTurns_putPixel (known : List (Nat × Pixel)) {s : State} (hb : s.state ≠ .busy)
    (hin : ∀ c ∈ known, c.1 < s.pix.size) :
    hostTurns (known.map fun c => .putPixel c.1 c.2) s =
      .next (s.withPix { s.pix with cells := Memory.writeAll s.pix.cells known }) := by
  induction known generalizing s with
  | nil => rfl
  | cons c known ih =>
    obtain ⟨hc, hknown⟩ := List.forall_mem_cons.mp hin
    rw [List.map_cons, hostTurns, hostTurn, hostPutPixel_of_lt hb hc, andThen_next]
    exact ih (s := s.withPix (s.pix.store c.1 c.2)) hb hknown

/-- A buffer bound with entries of which none lies beyond its end is the empty one with all of them written (R94). -/
theorem boundBuffer_eq_writeAll {w n tag : Nat} {known : List (Nat × BitVec w)} (hin : ∀ c ∈ known, c.1 < n) :
    boundBuffer w n tag known =
      { boundBuffer w n tag [] with cells := Memory.writeAll (boundBuffer w n tag []).cells known } := by
  have hall : known.filter (fun c => decide (c.1 < n)) = known :=
    List.filter_eq_self.mpr fun c hc => decide_eq_true (hin c hc)
  rw [boundBuffer, hall]
  rfl

/-- Binding FRAME and then filling it is binding the filled buffer (R94). -/
theorem hostTurns_bindFrame_putByte {n : Nat} {known : List (Nat × Byte)} {s : State} (hb : s.state ≠ .busy)
    (hin : ∀ c ∈ known, c.1 < n) :
    hostTurns (.bindFrame n [] :: known.map fun c => .putByte c.1 c.2) s = hostTurn (.bindFrame n known) s := by
  rw [hostTurns, hostTurn, hostTurn, hostBindFrame_of_not_busy hb, hostBindFrame_of_not_busy hb, andThen_next,
    hostTurns_putByte known (by exact hb) (by exact hin), boundBuffer_eq_writeAll hin]
  rfl

/-- Binding PIX and then filling it is binding the filled buffer (R94). -/
theorem hostTurns_bindPix_putPixel {n : Nat} {known : List (Nat × Pixel)} {s : State} (hb : s.state ≠ .busy)
    (hin : ∀ c ∈ known, c.1 < n) :
    hostTurns (.bindPix n [] :: known.map fun c => .putPixel c.1 c.2) s = hostTurn (.bindPix n known) s := by
  rw [hostTurns, hostTurn, hostTurn, hostBindPix_of_not_busy hb, hostBindPix_of_not_busy hb, andThen_next,
    hostTurns_putPixel known (by exact hb) (by exact hin), boundBuffer_eq_writeAll hin]
  rfl

theorem hostTurns_singleton (op : HostOp) (s : State) : hostTurns [op] s = hostTurn op s := by
  rw [hostTurns]
  cases hostTurn op s <;> rfl

/-! ### Exchanging two transactions -/

/-- Writes of two different registers commute. -/
theorem State.writeReg_comm {r r' : Nat} (hne : r' ≠ r) (d d' : HostWord) (s : State) :
    (s.writeReg r d).writeReg r' d' = (s.writeReg r' d').writeReg r d := by
  have hexcl (n : Nat) : r' = n → ¬ r = n := by omega
  simp only [State.writeReg, State.mk.injEq, true_and, and_true]
  refine ⟨?_, ?_, ?_, ?_, ?_, ?_, ?_⟩ <;> exact ite_ite_comm _ _ _ _ (hexcl _)

/-- The preparations of R94 that a register write may be exchanged with: binding, placing a byte, and the write of another
register. -/
def HostOp.exchangesWith (r : Nat) (op : HostOp) : Prop :=
  (∃ n known, op = .bindFrame n known) ∨ (∃ n known, op = .bindPix n known) ∨ (∃ a b, op = .putByte a b) ∨
    (∃ r' d', op = .write r' d' ∧ r' ≠ 0 ∧ r' ≠ r)

/-- Outside BUSY such a preparation does the same before and after a register write. -/
theorem hostTurn_writeReg {op : HostOp} {r : Nat} {d : HostWord} {s : State} (hop : op.exchangesWith r)
    (hb : s.state ≠ .busy) : hostTurn op (s.writeReg r d) = mapNext (·.writeReg r d) (hostTurn op s) := by
  have hb' : (s.writeReg r d).state ≠ .busy := hb
  obtain ⟨n, known, rfl⟩ | ⟨n, known, rfl⟩ | ⟨a, b, rfl⟩ | ⟨r', d', rfl, hr', hne⟩ := hop
  · rw [hostTurn, hostTurn, hostBindFrame_of_not_busy hb, hostBindFrame_of_not_busy hb']; rfl
  · rw [hostTurn, hostTurn, hostBindPix_of_not_busy hb, hostBindPix_of_not_busy hb']; rfl
  · simp only [hostTurn, hostPutByte, State.recordChange_of_not_busy hb, State.recordChange_of_not_busy hb',
      apply_ite (mapNext _), mapNext_next, mapNext_fault]
    rfl
  · rw [hostTurn, hostTurn, hostWrite_of_ne_zero hb hr', hostWrite_of_ne_zero hb' hr', State.writeReg_comm hne,
      mapNext_next]

/-- Outside BUSY such a preparation does not make the core BUSY. -/
theorem hostTurn_not_busy {op : HostOp} {r : Nat} {s t : State} (hop : op.exchangesWith r) (hb : s.state ≠ .busy)
    (h : hostTurn op s = .next t) : t.state ≠ .busy := by
  obtain ⟨r', d', rfl⟩ | ⟨hstate, -⟩ := hostTurn_keeps_status h
  · obtain ⟨n, known, hop⟩ | ⟨n, known, hop⟩ | ⟨a, b, hop⟩ | ⟨r₁, d₁, hop, hr₁, -⟩ := hop
    · cases hop
    · cases hop
    · cases hop
    · cases hop
      cases (hostWrite_of_ne_zero hb hr₁ d').symm.trans h
      exact hb
  · rwa [hstate]

/-- The exchange (R94): a register write answers on both sides, and the preparation, if it stops, stops on both. -/
theorem hostTurns_write_comm {op : HostOp} {r : Nat} {d : HostWord} {s : State} (hr : r ≠ 0) (hop : op.exchangesWith r)
    (hb : s.state ≠ .busy) : hostTurns [op, .write r d] s = hostTurns [.write r d, op] s := by
  have hwrite : hostTurn (.write r d) s = .next (s.writeReg r d) := hostWrite_of_ne_zero hb hr d
  calc hostTurns [op, .write r d] s
    _ = andThen (hostTurn op s) (hostTurn (.write r d)) := by
      rw [hostTurns]; exact congrArg (andThen _) (funext (hostTurns_singleton _))
    _ = mapNext (·.writeReg r d) (hostTurn op s) := by
      cases ht : hostTurn op s with
      | next t => exact hostWrite_of_ne_zero (hostTurn_not_busy hop hb ht) hr d
      | fault f => rfl
      | refused f => rfl
    _ = hostTurn op (s.writeReg r d) := (hostTurn_writeReg hop hb).symm
    _ = hostTurns [.write r d, op] s := by rw [hostTurns, hwrite, andThen_next, hostTurns_singleton]

/-- Settles O54: in all three clauses both runs are the same transactions composed. -/
theorem preparationsComeInAnyOrder : Obligations.PreparationsComeInAnyOrder := by
  intro s hb
  have hstep (op : HostOp) (rest : List Turn) :
      step (s.withTurns (.host op :: rest)) = mapNext (·.withTurns rest) (hostTurn op s) :=
    (step_of_host (s.withTurns_turns _)).trans (hostTurn_withTurns op s rest)
  refine ⟨fun n known rest hin => ?_, fun n known rest hin => ?_, fun op r d rest hr hop => ?_⟩
  · have hrun := steps_of_host_turns (.bindFrame n [] :: known.map fun c => .putByte c.1 c.2) rest s
    rw [hostTurns_bindFrame_putByte hb hin, ← hstep] at hrun
    simpa [Function.comp_def] using hrun
  · have hrun := steps_of_host_turns (.bindPix n [] :: known.map fun c => .putPixel c.1 c.2) rest s
    rw [hostTurns_bindPix_putPixel hb hin, ← hstep] at hrun
    simpa [Function.comp_def] using hrun
  · have hrun := steps_of_host_turns [op, .write r d] rest s
    have hrun' := steps_of_host_turns [.write r d, op] rest s
    rw [hostTurns_write_comm hr hop hb] at hrun
    exact hrun.trans hrun'.symm

end Sys2Proof.Machine
end
